-- ==== Sys2Proof/Word.lean ====
section
/-! DEFINITION. The words of GFLUT (00_scope.md R6, R7; 30_encoding.md R80, R86).
W is a parameter of at most 12, so every quantity of W bits (a field element, an exponent, a table cell, an index
register) is held zero-extended in the 12 bits of the operand and RESULT fields (notes/assumptions/7.md). -/

namespace Sys2Proof

/-- A quantity of W bits, zero-extended to 12: a field element (R7), an exponent, a table cell (R25), an operand
field A or B (R81), the RESULT field (R86). -/
abbrev Elem := BitVec 12

/-- A command word `cmd[31:0]` (R80). -/
abbrev CmdWord := BitVec 32

/-- A response word (R86). -/
abbrev RspWord := BitVec 16

/-- A polynomial of degree at most 12 (R3: P_IN has 13 bits); bit k is the coefficient of x^k (R55). -/
abbrev Poly := BitVec 13

end Sys2Proof
end

