-- ==== Sys2Proof/Config.lean ====
section
/-! DEFINITION. The parameters fixed when the block is instantiated (00_scope.md R2 to R6), and the one open value of the
spec, DEFAULT_POLY (R4, 92_eei_decisions.md D3). -/

namespace Sys2Proof

/-- The configuration (W, P_IN) of one instance (R2, R3): never changed by any step (notes/assumptions/1.md). -/
structure Config where
  /-- W, the bit width of the field (R2). -/
  width : Nat
  /-- P_IN, the supplied polynomial, 0 for the default (R3). -/
  polyIn : Poly
deriving DecidableEq, Repr

/-- R5: 1 <= W <= 12, and P_IN is 0 or has bit W set and every bit above W clear. -/
def Config.legal (c : Config) : Bool :=
  decide (1 ≤ c.width) && decide (c.width ≤ 12) &&
    (c.polyIn == 0 || (c.polyIn.getLsbD c.width && c.polyIn >>> (c.width + 1) == 0))

/-- Q = 2^W, the number of field elements and of cells of EXP and of LOG (R6). -/
def Config.q (c : Config) : Nat := 2 ^ c.width

/-- N = 2^W - 1, the largest element and the order of the multiplicative group (R6). -/
def Config.n (c : Config) : Nat := 2 ^ c.width - 1

/-- R4, D3, U9: what an implementer writes down for DEFAULT_POLY. A FREE VALUE: it has no body, and nothing can be proved
of it; `Machine.defaultPoly` keeps it to the limits R4 sets (notes/assumptions/3.md). -/
opaque Config.rawDefaultPoly : Nat → Poly

end Sys2Proof
end

