-- ==== Sys2Proof/Syntax.lean ====
section
/-! DEFINITION. The twelve commands of GFLUT-CMD version 1, one constructor for each row of the opcode map
(30_encoding.md R83; spec/opcode_table.json), in the table's order. -/

namespace Sys2Proof

/-- A command with its operand fields (R81, R84): 12 bits each, whatever W is. Whether an operand is in range depends on
the configuration (`Instr.wellFormed`). -/
inductive Instr where
  /-- R150: construct an element from the raw value `v`. -/
  | construct (v : Elem)
  /-- R131. -/
  | add (a b : Elem)
  /-- R132. -/
  | sub (a b : Elem)
  /-- R133. -/
  | mul (a b : Elem)
  /-- R134: `a` the dividend, `b` the divisor. -/
  | div (a b : Elem)
  /-- R135. -/
  | neg (a : Elem)
  /-- R136. -/
  | inv (a : Elem)
  /-- R151: `i` an exponent. -/
  | exp (i : Elem)
  /-- R152: `e` an element. -/
  | log (e : Elem)
  /-- R153. -/
  | width
  /-- R154. -/
  | maxval
  /-- R155. -/
  | status
deriving DecidableEq, Repr

/-- The operands a command uses, in the order of the fields A, B (R84). -/
def Instr.operands : Instr → List Elem
  | .construct v => [v]
  | .add a b => [a, b]
  | .sub a b => [a, b]
  | .mul a b => [a, b]
  | .div a b => [a, b]
  | .neg a => [a]
  | .inv a => [a]
  | .exp i => [i]
  | .log e => [e]
  | .width => []
  | .maxval => []
  | .status => []

/-- The class TABLE or PURE of a command (R92): a TABLE command needs the tables. -/
def Instr.needsTables : Instr → Bool
  | .construct _ => true
  | .add _ _ => false
  | .sub _ _ => false
  | .mul _ _ => true
  | .div _ _ => true
  | .neg _ => false
  | .inv _ => true
  | .exp _ => true
  | .log _ => true
  | .width => false
  | .maxval => false
  | .status => false

end Sys2Proof
end

