-- ==== Sys2Proof/WellFormed.lean ====
section
/-! DEFINITION. When a command is well-formed under a configuration (30_encoding.md R82, R88): every operand it uses is
below Q = 2^W. (The encoding checks of R85 are `decode`'s: a value of `Instr` has no reserved or stray field.) -/

namespace Sys2Proof

/-- R82: the value of every used operand field is below Q. -/
def Instr.wellFormed (c : Config) (i : Instr) : Bool :=
  i.operands.all fun x => decide (x.toNat < c.q)

end Sys2Proof
end

