-- ==== Sys2Proof/Decode.lean ====
section
/-! DEFINITION. The decoder, total on all 2^32 command words (30_encoding.md R81, R83, R85), the encoder (R89), and the
opcode map as match and mask rows (R83). The range check of R82 depends on W and is `Machine.operandInRange`. -/

namespace Sys2Proof

/-- Why a word is ILLEGAL, by name (R85). -/
inductive DecodeError where
  /-- OPC is 0x0, 0xD, 0xE or 0xF. -/
  | reservedOpcode
  /-- RSV is not 0. -/
  | reservedField
  /-- A field the command does not use is not 0. -/
  | strayOperand
deriving DecidableEq, Repr

/-- Field OPC, bits 31:28 (R81). -/
def fieldOpc (w : CmdWord) : BitVec 4 := w.extractLsb' 28 4

/-- Field RSV, bits 27:24 (R81). -/
def fieldRsv (w : CmdWord) : BitVec 4 := w.extractLsb' 24 4

/-- Field A, bits 23:12 (R81). -/
def fieldA (w : CmdWord) : Elem := w.extractLsb' 12 12

/-- Field B, bits 11:0 (R81). -/
def fieldB (w : CmdWord) : Elem := w.extractLsb' 0 12

/-- R81, R84: a unary command uses A, and its B must be 0. -/
def decodeUnary (w : CmdWord) (mk : Elem → Instr) : Except DecodeError Instr :=
  if fieldB w = 0 then .ok (mk (fieldA w)) else .error .strayOperand

/-- R81, R84: a nullary command uses neither field, and both must be 0. -/
def decodeNullary (w : CmdWord) (i : Instr) : Except DecodeError Instr :=
  if fieldA w = 0 ∧ fieldB w = 0 then .ok i else .error .strayOperand

/-- The opcode map of R83 on a word whose RSV is 0. -/
def decodeOpcode (w : CmdWord) : Except DecodeError Instr :=
  match (fieldOpc w).toNat with
  | 0x1 => decodeUnary w .construct
  | 0x2 => .ok (.add (fieldA w) (fieldB w))
  | 0x3 => .ok (.sub (fieldA w) (fieldB w))
  | 0x4 => .ok (.mul (fieldA w) (fieldB w))
  | 0x5 => .ok (.div (fieldA w) (fieldB w))
  | 0x6 => decodeUnary w .neg
  | 0x7 => decodeUnary w .inv
  | 0x8 => decodeUnary w .exp
  | 0x9 => decodeUnary w .log
  | 0xA => decodeNullary w .width
  | 0xB => decodeNullary w .maxval
  | 0xC => decodeNullary w .status
  | _ => .error .reservedOpcode

/-- R83, R85: the command a word stands for, or why it is illegal. -/
def decode (w : CmdWord) : Except DecodeError Instr :=
  if fieldRsv w = 0 then decodeOpcode w else .error .reservedField

/-- A word laid out in format C with RSV = 0 (R81). -/
def formatC (opc : BitVec 4) (a b : Elem) : CmdWord := opc ++ (0 : BitVec 4) ++ a ++ b

/-- R83, R89: the word of a command; absent operands are 0. -/
def encode : Instr → CmdWord
  | .construct v => formatC 0x1 v 0
  | .add a b => formatC 0x2 a b
  | .sub a b => formatC 0x3 a b
  | .mul a b => formatC 0x4 a b
  | .div a b => formatC 0x5 a b
  | .neg a => formatC 0x6 a 0
  | .inv a => formatC 0x7 a 0
  | .exp i => formatC 0x8 i 0
  | .log e => formatC 0x9 e 0
  | .width => formatC 0xA 0 0
  | .maxval => formatC 0xB 0 0
  | .status => formatC 0xC 0 0

/-- The match and mask columns of R83's table, in its order, CONSTRUCT to STATUS. -/
def opcodeRows : List (CmdWord × CmdWord) :=
  [ (0x10000000, 0xFF000FFF), (0x20000000, 0xFF000000), (0x30000000, 0xFF000000), (0x40000000, 0xFF000000),
    (0x50000000, 0xFF000000), (0x60000000, 0xFF000FFF), (0x70000000, 0xFF000FFF), (0x80000000, 0xFF000FFF),
    (0x90000000, 0xFF000FFF), (0xA0000000, 0xFFFFFFFF), (0xB0000000, 0xFFFFFFFF), (0xC0000000, 0xFFFFFFFF) ]

/-- R83: a word selects a row when `(cmd and mask) = match`. -/
def matchesRow (w : CmdWord) (row : CmdWord × CmdWord) : Bool := w &&& row.2 == row.1

/-- The command read from the word `w` of `nbits` bits, bit 0 its least significant bit, every bit above `nbits` 0 (a
command word is one parallel word of 32 bits: R80, R54, so there is no byte order to lay out). -/
def decodeTableWord (nbits w : Nat) : Option Instr :=
  if nbits ≤ 32 then (decode (BitVec.ofNat 32 (w % 2 ^ nbits))).toOption else none

end Sys2Proof
end

