-- ==== Sys2Proof/Machine/State.lean ====
section
/-! DEFINITION. The state of one GFLUT instance (10_state.md R20 to R41), the reasons a step can stop, and the state after
reset (R40, R230). Plain data: tables are lists of (address, cell). -/

namespace Sys2Proof.Machine

/-- The builder phase BS, one of eight values (R27). -/
inductive Phase where
  /-- B_IDLE: no build claimed. -/
  | idle
  /-- B_EXP0. -/
  | exp0
  /-- B_EXPGEN. -/
  | expgen
  /-- B_LOGFIX. -/
  | logfix
  /-- B_CHECK. -/
  | check
  /-- B_FILL. -/
  | fill
  /-- B_DONE: tables complete and published. -/
  | done
  /-- B_FAILED: the configuration is not valid; terminal. -/
  | failed
deriving DecidableEq, Repr

/-- The four address spaces, one for each table; there is no other memory (20_memory.md R50). -/
inductive Space where
  | exp
  | log
  | mul
  | div
deriving DecidableEq, Repr

/-- The written cells of one table, by address (R25): addresses strictly rising, an unlisted address is NOVALUE
(notes/assumptions/8.md, 9.md). `Memory.wf` in Machine/Ops.lean is the canonical form. -/
abbrev Memory := List (Nat × Elem)

/-- What REQ and the block share at one instant: the block's registers and tables (R20), its parameters, and the
environment's side of the ports. -/
structure State where
  /-- The parameters (W, P_IN): no step writes them (00_scope.md R2, R3; notes/assumptions/1.md). -/
  cfg : Config
  /-- Table EXP, addressed by the exponent (R21, R51). -/
  exp : Memory
  /-- Table LOG, addressed by the element (R22, R52). -/
  log : Memory
  /-- Table MUL, addressed by a·Q + b (R23, R53, D19). -/
  mul : Memory
  /-- Table DIV, addressed by a·Q + b, a the dividend (R24, R53, D19). -/
  div : Memory
  /-- INIT_FLAG: a build has been claimed (R26). -/
  initFlag : Bool
  /-- BS, the builder phase (R27). -/
  bs : Phase
  /-- I, the builder's index into EXP (R28). -/
  i : Elem
  /-- A, the builder's row index (R29). -/
  a : Elem
  /-- B, the builder's column index (R29). -/
  b : Elem
  /-- ORD_OK: no sign yet that x has an order other than N (R30). -/
  ordOk : Bool
  /-- RSP, the response register (R31). -/
  rsp : RspWord
  /-- The environment's: the words REQ has still to have answered; the head is the word at the port, held until an EXEC
  step consumes it; empty is `cmd_valid` low (30_encoding.md R80, 70_reset_and_hazards.md R234; notes/assumptions/4.md). -/
  cmds : List CmdWord
  /-- The environment's: for each coming assertion of `rst`, how many steps come before it (70_reset_and_hazards.md R230;
  notes/assumptions/5.md). -/
  rstIn : List Nat
  /-- The environment's: the response words emitted so far, newest first (30_encoding.md R86; notes/assumptions/6.md). -/
  emitted : List RspWord
deriving DecidableEq, Repr

/-- Why the MODEL stops with a fault. The block itself has none (60_exceptions.md R200, R212); neither is raised in a state
that meets the invariant of Safety.lean. -/
inductive Fault where
  /-- A cell that holds NOVALUE was read (R25: "a model should make such a read a fault of the model"). Raised by
  `State.readCell`. Safe. -/
  | noValue (sp : Space)
  /-- An address outside its table (20_memory.md R59: such an address cannot be formed). Raised by `State.readCell` and
  `State.writeCell`, and by the B_EXPGEN step with I = 0. Safe. -/
  | noSuchCell (sp : Space)
deriving DecidableEq, Repr

/-- Why the MODEL gives no meaning. -/
inductive Refusal where
  /-- An instruction that has no meaning yet; no arm of `exec` raises it. Safe. -/
  | notModelled (mnemonic : String)
  /-- The configuration is not legal: no such block exists (00_scope.md R5, 60_exceptions.md R212). Raised by `step` and by
  the shared prologue of every command. Safe. -/
  | illegalConfiguration
deriving DecidableEq, Repr

/-- How a step or a command ends. -/
abbrev Result := Host.Outcome State Fault Refusal

/-- R40: the state after reset of an instance with configuration `c`, REQ presenting nothing. -/
def State.resetOf (c : Config) : State where
  cfg := c
  exp := []
  log := []
  mul := []
  div := []
  initFlag := false
  bs := .idle
  i := 0
  a := 0
  b := 0
  ordOk := true
  rsp := 0x0000
  cmds := []
  rstIn := []
  emitted := []

/-- The state after reset (R40). The spec leaves W and P_IN to the instantiation; this one instance is GF(16) with
P = x^4 + x + 1, the running example of the spec (DESIGN CHOICE, notes/assumptions/2.md). -/
def State.reset : State := State.resetOf { width := 4, polyIn := 0x13 }

end Sys2Proof.Machine
end

