-- ==== Sys2Proof/Machine/Operands.lean ====
section
/-! DEFINITION. Operand ranges (30_encoding.md R82), the effective polynomial (00_scope.md R3, R4), multiplication by x
modulo P (40_builder.md R103, R104), validity of a configuration (R106), and the exponent arithmetic of the fill (R109). -/

namespace Sys2Proof.Machine

/-- R82: bits 11 down to W of an operand field are all 0. -/
def operandInRange (c : Config) (x : Elem) : Bool := x >>> c.width == 0

/-- `v[W-1:0]` of a value of up to 13 bits (R12, R103). -/
def lowBits (w : Nat) (v : BitVec 13) : Elem := BitVec.ofNat 12 (v.toNat % 2 ^ w)

/-- R103, R104, R106: x·u reduced modulo `p`. The shift is held in one more bit, so no bit is lost; the result is below Q. -/
def xtime (w : Nat) (p : Poly) (u : Elem) : Elem :=
  let t : BitVec 13 := (u.setWidth 13) <<< 1
  if 2 ^ w ≤ t.toNat then lowBits w (t ^^^ p) else lowBits w t

/-- R106: the sequence e_0 = 1, e_i = xtime(e_(i-1)). -/
def powX (w : Nat) (p : Poly) : Nat → Elem
  | 0 => 1
  | k + 1 => xtime w p (powX w p k)

/-- R106, first part: no e_i with 0 < i < `k` is 1. -/
def noEarlyOne (w : Nat) (p : Poly) (k : Nat) : Bool :=
  (List.range k).all fun i => i == 0 || powX w p i != 1

/-- R106: VALID(W, P), x has multiplicative order exactly N modulo P. -/
def validPoly (w : Nat) (p : Poly) : Bool :=
  noEarlyOne w p (2 ^ w - 1) && powX w p (2 ^ w - 1) == 1

/-- 93_implementation_defined.md G1, general knowledge and not the hardware's (PRESUMED): used only to show that the set of
values `defaultPoly` ranges over is not empty (notes/assumptions/3.md). -/
def knownPrimitive (w : Nat) : Poly :=
  match w with
  | 1 => 0x3
  | 2 => 0x7
  | 3 => 0xB
  | 4 => 0x13
  | 5 => 0x25
  | 6 => 0x43
  | 7 => 0x89
  | 8 => 0x11D
  | 9 => 0x211
  | 10 => 0x409
  | 11 => 0x805
  | _ => 0x1053

/-- What R4 asks of a default polynomial for `w`: bit w set, no higher bit set, and VALID. -/
def defaultAllowed (w : Nat) (p : Poly) : Bool :=
  p.getLsbD w && p >>> (w + 1) == 0 && validPoly w p

/-- R4: DEFAULT_POLY. The open value is `Config.rawDefaultPoly w`, kept to the limits of R4; any value that meets them is
possible, and nothing says which it is (notes/assumptions/3.md). -/
def defaultPoly (w : Nat) : Poly :=
  if defaultAllowed w (Config.rawDefaultPoly w) then Config.rawDefaultPoly w else knownPrimitive w

/-- R3: the effective polynomial P. -/
def effPoly (c : Config) : Poly := if c.polyIn = 0 then defaultPoly c.width else c.polyIn

/-- R106: VALID of a configuration. -/
def configValid (c : Config) : Bool := validPoly c.width (effPoly c)

/-- R53, D19: the linear address of the cell (a, b) of MUL or DIV. -/
def pairAddr (c : Config) (a b : Elem) : Nat := a.toNat * c.q + b.toNat

/-- R108, R109: the exponent of the product, `(la + lb) mod N`. -/
def mulExponent (c : Config) (la lb : Elem) : Nat := (la.toNat + lb.toNat) % c.n

/-- R108, R109, D25: the exponent of the quotient, `(la + N - lb) mod N`; lb is at most N, so the difference is not
negative. -/
def divExponent (c : Config) (la lb : Elem) : Nat := (la.toNat + c.n - lb.toNat) % c.n

end Sys2Proof.Machine
end

