-- ==== Sys2Proof/Machine/Flags.lean ====
section
/-! DEFINITION. The decodes of the state (10_state.md R32, R33), the response word (30_encoding.md R86, R87) and the dz bit
(60_exceptions.md R203). -/

namespace Sys2Proof.Machine

/-- R32: BUSY holds in the five building phases. -/
def Phase.busy : Phase → Bool
  | .idle => false
  | .exp0 => true
  | .expgen => true
  | .logfix => true
  | .check => true
  | .fill => true
  | .done => false
  | .failed => false

/-- R32: BUILT, the pin `st_built`. -/
def State.built (s : State) : Bool := s.bs == .done

/-- R32: CFG_ERR, the pin `st_cfgerr`. -/
def State.cfgErr (s : State) : Bool := s.bs == .failed

/-- R32: BUSY. -/
def State.busy (s : State) : Bool := s.bs.busy

/-- R32: `cmd_ready` is low whenever BUSY. -/
def State.cmdReady (s : State) : Bool := !s.busy

/-- R32: the pin `st_init` carries INIT_FLAG. -/
def State.stInit (s : State) : Bool := s.initFlag

/-- R33, R155: the STATUS word, bit 0 INIT_FLAG, bit 1 BUILT, bit 2 CFG_ERR, bits 11:3 zero. -/
def State.statusWord (s : State) : Elem :=
  (0 : BitVec 9) ++ BitVec.ofBool s.cfgErr ++ BitVec.ofBool s.built ++ BitVec.ofBool s.initFlag

/-- The status codes (R87); codes 5 to 7 are never produced. -/
inductive Code where
  | ok
  | illegal
  | range
  | badcfg
  | undef
deriving DecidableEq, Repr

/-- R87: the number of a code. -/
def Code.bits : Code → BitVec 3
  | .ok => 0
  | .illegal => 1
  | .range => 2
  | .badcfg => 3
  | .undef => 4

/-- R86: the response word `(CODE, DZ, RESULT)`, CODE in bits 15:13, DZ in bit 12, RESULT in bits 11:0. -/
def rspWord (code : Code) (dz : Bool) (result : Elem) : RspWord := code.bits ++ BitVec.ofBool dz ++ result

/-- R203: dz of a DIV or INV, 1 exactly when the divisor is 0. -/
def dzOf (divisor : Elem) : Bool := divisor == 0

end Sys2Proof.Machine
end

