-- ==== Sys2Proof/Machine/Ops.lean ====
section
/-! DEFINITION. The operations every step is made of: cells of the tables (20_memory.md), `respond` (00_scope.md R12), the
TRIGGER step (40_builder.md R101), the EXEC prologue (41_field_ops.md R130), reset (70_reset_and_hazards.md R230) and the
ports. The block has no exceptions: an error response is all there is to take, and nothing to return from (60_exceptions.md
R200, R205). -/

namespace Sys2Proof.Machine

/-! ## Cells -/

/-- The canonical form of a table: addresses strictly rising. (No cell holds NOVALUE once written, so no entry equals what
an unlisted address reads as: R25.) -/
abbrev Memory.wf (m : Memory) : Prop := (m.map Prod.fst).Pairwise (· < ·)

/-- The content of a cell; `none` is NOVALUE, the one value of every unlisted address (R25). -/
def Memory.read : Memory → Nat → Option Elem
  | [], _ => none
  | (k', v) :: m, k => if k = k' then some v else Memory.read m k

/-- A write replaces the content of one cell (R25). -/
def Memory.write : Memory → Nat → Elem → Memory
  | [], k, v => [(k, v)]
  | (k', v') :: m, k, v =>
    if k < k' then (k, v) :: (k', v') :: m
    else if k = k' then (k, v) :: m
    else (k', v') :: Memory.write m k v

/-- How many cells a table has (R50, R59). -/
def cells (c : Config) : Space → Nat
  | .exp => c.q
  | .log => c.q
  | .mul => c.q * c.q
  | .div => c.q * c.q

/-- The table of an address space. -/
def State.table (s : State) : Space → Memory
  | .exp => s.exp
  | .log => s.log
  | .mul => s.mul
  | .div => s.div

/-- The state with one table replaced. -/
def State.setTable (s : State) (sp : Space) (m : Memory) : State :=
  match sp with
  | .exp => { s with exp := m }
  | .log => { s with log := m }
  | .mul => { s with mul := m }
  | .div => { s with div := m }

/-- The content of one cell, `none` for NOVALUE: the read of the frame statements. -/
def State.cell (s : State) (sp : Space) (k : Nat) : Option Elem := (s.table sp).read k

/-- A read of one whole cell (R57). It faults outside the table (R59) and on NOVALUE (R25). -/
def State.readCell (s : State) (sp : Space) (k : Nat) : Except Fault Elem :=
  if k < cells s.cfg sp then
    match s.cell sp k with
    | some v => .ok v
    | none => .error (.noValue sp)
  else .error (.noSuchCell sp)

/-- A write of one whole cell (R57). It faults outside the table (R59). -/
def State.writeCell (s : State) (sp : Space) (k : Nat) (v : Elem) : Except Fault State :=
  if k < cells s.cfg sp then .ok (s.setTable sp ((s.table sp).write k v)) else .error (.noSuchCell sp)

/-- A computation that may fault, as the end of a step. -/
def finish : Except Fault State → Result
  | .ok s => .next s
  | .error f => .fault f

/-! ## Responses and the trigger -/

/-- R12: `respond(code, dz, result)` writes RSP, emits that word and consumes the command. -/
def respond (code : Code) (dz : Bool) (result : Elem) (s : State) : State :=
  { s with
    rsp := rspWord code dz result
    emitted := rspWord code dz result :: s.emitted
    cmds := s.cmds.tail }

/-- R101: the TRIGGER step. The command is not consumed and no response is emitted. -/
def trigger (s : State) : State := { s with initFlag := true, ordOk := true, bs := .exp0 }

/-! ## The prologue of a command -/

/-- R130, R82, R88: what every command does first. An illegal configuration is refused (R5). While BUSY no command executes
and the word is held (R234; `step` takes a BUILD step then). An operand out of range is answered RANGE. -/
def command (operands : List Elem) (run : State → Result) (s : State) : Result :=
  if s.cfg.legal then
    if s.busy then .next s
    else if operands.all (operandInRange s.cfg) then run s
    else .next (respond .range false 0 s)
  else .refused .illegalConfiguration

/-- R92, R88, R101: a well-formed TABLE command triggers the build in B_IDLE, is answered BADCFG in B_FAILED, and otherwise
runs with the tables complete. -/
def tableCommand (operands : List Elem) (run : State → Result) (s : State) : Result :=
  command operands
    (fun s =>
      match s.bs with
      | .idle => .next (trigger s)
      | .failed => .next (respond .badcfg false 0 s)
      | _ => run s)
    s

/-- `respond(OK, 0, result)`. -/
def answer (result : Elem) (s : State) : Result := .next (respond .ok false result s)

/-- `respond(OK, dz, T[k])`: the answer is one cell of a table. -/
def answerCell (sp : Space) (k : Nat) (dz : Bool) (s : State) : Result :=
  match s.readCell sp k with
  | .ok v => .next (respond .ok dz v s)
  | .error f => .fault f

/-! ## The ports -/

/-- The command word at the port, if `cmd_valid` is high (R80). -/
def State.port (s : State) : Option CmdWord := s.cmds.head?

/-- `rst` is asserted before the next step (R230). -/
def State.rstNow (s : State) : Bool := s.rstIn.head? == some 0

/-- One step fewer to the next reset. -/
def tick (s : State) : State :=
  { s with rstIn := match s.rstIn with
                    | [] => []
                    | k :: r => (k - 1) :: r }

/-- R230, R231: reset puts every piece of state at its value of R40, whatever is running. The word at the port is not
consumed, the configuration is not changed, and no response is emitted. -/
def applyReset (s : State) : State :=
  { State.resetOf s.cfg with cmds := s.cmds, rstIn := s.rstIn.tail, emitted := s.emitted }

/-- REQ presents one more word, ahead of every other, and no reset comes before the next step. -/
def present (w : CmdWord) (s : State) : State :=
  { s with cmds := w :: s.cmds, rstIn := s.rstIn.dropWhile (· == 0) }

end Sys2Proof.Machine
end

