-- ==== Sys2Proof/Machine/Builder.lean ====
section
/-! DEFINITION. The table builder BLD (40_builder.md): one BUILD step for each building phase (R102 to R108), and the whole
build as one function (R113), with which the step-by-step builder is compared. -/

namespace Sys2Proof.Machine

/-- R102: B_EXP0. -/
def buildExp0 (s : State) : Except Fault State := do
  let s1 ← s.writeCell .exp 0 1
  return { s1 with i := 1, bs := .expgen }

/-- R103: what one iteration makes of ORD_OK, for the index `i` and the new power `v`. -/
def ordAfter (c : Config) (i v : Elem) (ok : Bool) : Bool :=
  if i.toNat ≠ c.n ∧ v = 1 then false
  else if i.toNat = c.n ∧ v ≠ 1 then false
  else ok

/-- R103: one iteration of the exp/log loop. With I = 0 (a state no run reaches) there is no cell EXP[I-1]. -/
def buildExpGen (s : State) : Except Fault State :=
  if s.i = 0 then .error (.noSuchCell .exp)
  else do
    let u ← s.readCell .exp (s.i.toNat - 1)
    let v := xtime s.cfg.width (effPoly s.cfg) u
    let s1 ← s.writeCell .exp s.i.toNat v
    let s2 ← s1.writeCell .log v.toNat s.i
    return { s2 with
      ordOk := ordAfter s.cfg s.i v s.ordOk
      i := if s.i.toNat = s.cfg.n then s.i else s.i + 1
      bs := if s.i.toNat = s.cfg.n then .logfix else .expgen }

/-- R105: B_LOGFIX. -/
def buildLogFix (s : State) : Except Fault State := do
  let s1 ← s.writeCell .log 1 0
  return { s1 with bs := .check }

/-- R107: B_CHECK. -/
def buildCheck (s : State) : Except Fault State :=
  if s.ordOk then .ok { s with a := 0, b := 0, bs := .fill } else .ok { s with bs := .failed }

/-- R108: the cells (m, d) of MUL and DIV for the pair (a, b). The zero test comes first, so LOG[0] is never read. -/
def fillCells (s : State) (a b : Elem) : Except Fault (Elem × Elem) :=
  if a = 0 ∨ b = 0 then .ok (0, 0)
  else do
    let la ← s.readCell .log a.toNat
    let lb ← s.readCell .log b.toNat
    let m ← s.readCell .exp (mulExponent s.cfg la lb)
    let d ← s.readCell .exp (divExponent s.cfg la lb)
    return (m, d)

/-- R108: the row and column of the next pair and the next phase, in row order, A the slow index. -/
def nextPair (s : State) : State :=
  if s.b.toNat ≠ s.cfg.n then { s with b := s.b + 1 }
  else if s.a.toNat ≠ s.cfg.n then { s with a := s.a + 1, b := 0 }
  else { s with bs := .done }

/-- R108: B_FILL, one cell of MUL and one of DIV. -/
def buildFill (s : State) : Except Fault State := do
  let md ← fillCells s s.a s.b
  let s1 ← s.writeCell .mul (pairAddr s.cfg s.a s.b) md.1
  let s2 ← s1.writeCell .div (pairAddr s.cfg s.a s.b) md.2
  return nextPair s2

/-- The BUILD step of the phase the builder is in (R100). No BUILD step is enabled in B_IDLE, B_DONE and B_FAILED (R110,
R111): nothing changes there, and `step` takes no BUILD step. -/
def buildStep (s : State) : Result :=
  match s.bs with
  | .exp0 => finish (buildExp0 s)
  | .expgen => finish (buildExpGen s)
  | .logfix => finish (buildLogFix s)
  | .check => finish (buildCheck s)
  | .fill => finish (buildFill s)
  | .idle => .next s
  | .done => .next s
  | .failed => .next s

/-! ## The build as one function (R113) -/

/-- What the exp/log loop of R113 leaves behind. -/
structure Powers where
  exp : Memory
  log : Memory
  ok : Bool
deriving DecidableEq, Repr

/-- R113: EXP[0] and the first `k` iterations of the loop. -/
def powersLoop (c : Config) : Nat → Powers
  | 0 => { exp := Memory.write [] 0 1, log := [], ok := true }
  | k + 1 =>
    let r := powersLoop c k
    let v := xtime c.width (effPoly c) ((r.exp.read k).getD 0)
    { exp := r.exp.write (k + 1) v
      log := r.log.write v.toNat (BitVec.ofNat 12 (k + 1))
      ok := r.ok && !(k + 1 != c.n && v == 1) && !(k + 1 == c.n && v != 1) }

/-- R113: EXP, LOG (with LOG[1] <- 0 after the loop) and whether the configuration is valid. -/
def powers (c : Config) : Powers :=
  let r := powersLoop c c.n
  { r with log := r.log.write 1 0 }

/-- R113: the cell (a, b) of MUL, from finished EXP and LOG. -/
def mulCellOf (c : Config) (r : Powers) (a b : Elem) : Elem :=
  if a = 0 ∨ b = 0 then 0
  else (r.exp.read (mulExponent c ((r.log.read a.toNat).getD 0) ((r.log.read b.toNat).getD 0))).getD 0

/-- R113: the cell (a, b) of DIV, from finished EXP and LOG. -/
def divCellOf (c : Config) (r : Powers) (a b : Elem) : Elem :=
  if a = 0 ∨ b = 0 then 0
  else (r.exp.read (divExponent c ((r.log.read a.toNat).getD 0) ((r.log.read b.toNat).getD 0))).getD 0

/-- The first `k` cells of a pair table in row order, each given by `f`. -/
def pairCells (c : Config) (f : Elem → Elem → Elem) (k : Nat) : Memory :=
  (List.range k).map fun x => (x, f (BitVec.ofNat 12 (x / c.q)) (BitVec.ofNat 12 (x % c.q)))

/-- R113: the state in which a build that starts from `s` ends: B_DONE with all four tables, or B_FAILED with EXP and LOG
only. -/
def buildWhole (s : State) : State :=
  let r := powers s.cfg
  let last := BitVec.ofNat 12 s.cfg.n
  if r.ok then
    { s with
      exp := r.exp
      log := r.log
      mul := pairCells s.cfg (mulCellOf s.cfg r) (s.cfg.q * s.cfg.q)
      div := pairCells s.cfg (divCellOf s.cfg r) (s.cfg.q * s.cfg.q)
      i := last
      a := last
      b := last
      ordOk := true
      bs := .done }
  else { s with exp := r.exp, log := r.log, i := last, ordOk := false, bs := .failed }

/-- R114: how many BUILD steps a build takes. -/
def buildSteps (c : Config) : Nat := if configValid c then c.q * c.q + c.q + 2 else c.q + 2

end Sys2Proof.Machine
end

