-- ==== Sys2Proof/Machine/Access.lean ====
section
/-! DEFINITION. Construction, table reads and accessors (42_access_ops.md R150 to R155), each over the shared prologue. -/

namespace Sys2Proof.Machine

/-- R150: CONSTRUCT v answers v; as a TABLE command it triggers the build on first use. -/
def execConstruct (v : Elem) (s : State) : Result := tableCommand [v] (answer v) s

/-- R151: EXP i answers EXP[i]; the index is not reduced. -/
def execExp (i : Elem) (s : State) : Result := tableCommand [i] (answerCell .exp i.toNat false) s

/-- R152: LOG e answers LOG[e], and UNDEF when e = 0, decided last. -/
def execLog (e : Elem) (s : State) : Result :=
  tableCommand [e]
    (fun s => if e = 0 then .next (respond .undef false 0 s) else answerCell .log e.toNat false s) s

/-- R153: WIDTH answers W. -/
def execWidth (s : State) : Result := command [] (answer (BitVec.ofNat 12 s.cfg.width)) s

/-- R154: MAXVAL answers N. -/
def execMaxval (s : State) : Result := command [] (answer (BitVec.ofNat 12 s.cfg.n)) s

/-- R155: STATUS answers the status word of R33. -/
def execStatus (s : State) : Result := command [] (answer s.statusWord) s

end Sys2Proof.Machine
end

