-- ==== Sys2Proof/Machine/Field.lean ====
section
/-! DEFINITION. The six arithmetic commands (41_field_ops.md R131 to R136), each over the shared prologue. -/

namespace Sys2Proof.Machine

/-- R131: ADD a, b answers a xor b. -/
def execAdd (a b : Elem) (s : State) : Result := command [a, b] (answer (a ^^^ b)) s

/-- R132: SUB a, b answers a xor b. -/
def execSub (a b : Elem) (s : State) : Result := command [a, b] (answer (a ^^^ b)) s

/-- R133: MUL a, b answers MUL[a][b]. -/
def execMul (a b : Elem) (s : State) : Result :=
  tableCommand [a, b] (answerCell .mul (pairAddr s.cfg a b) false) s

/-- R134: DIV a, b answers DIV[a][b], with dz when b = 0. -/
def execDiv (a b : Elem) (s : State) : Result :=
  tableCommand [a, b] (answerCell .div (pairAddr s.cfg a b) (dzOf b)) s

/-- R135: NEG a answers a. -/
def execNeg (a : Elem) (s : State) : Result := command [a] (answer a) s

/-- R136: INV a answers DIV[1][a], with dz when a = 0. -/
def execInv (a : Elem) (s : State) : Result :=
  tableCommand [a] (answerCell .div (pairAddr s.cfg 1 a) (dzOf a)) s

end Sys2Proof.Machine
end

