-- ==== Sys2Proof/Machine/Dispatch.lean ====
section
/-! DEFINITION. One arm for each command: its meaning (41_field_ops.md, 42_access_ops.md). -/

namespace Sys2Proof.Machine

def exec (i : Instr) (s : State) : Host.Outcome State Fault Refusal :=
  match i with
  | .construct v => Sys2Proof.Machine.execConstruct v s
  | .add a b => Sys2Proof.Machine.execAdd a b s
  | .sub a b => Sys2Proof.Machine.execSub a b s
  | .mul a b => Sys2Proof.Machine.execMul a b s
  | .div a b => Sys2Proof.Machine.execDiv a b s
  | .neg a => Sys2Proof.Machine.execNeg a s
  | .inv a => Sys2Proof.Machine.execInv a s
  | .exp k => Sys2Proof.Machine.execExp k s
  | .log e => Sys2Proof.Machine.execLog e s
  | .width => Sys2Proof.Machine.execWidth s
  | .maxval => Sys2Proof.Machine.execMaxval s
  | .status => Sys2Proof.Machine.execStatus s

end Sys2Proof.Machine
end

