-- ==== Sys2Proof/Machine/Step.lean ====
section
/-! DEFINITION. One step of the block (00_scope.md R10): reset if it is asserted (70_reset_and_hazards.md R230), else a
BUILD step while BUSY (40_builder.md R100), else a TRIGGER or EXEC step on the word at the port (41_field_ops.md R130), else
nothing. -/

namespace Sys2Proof.Machine

/-- R88, R85: a word that decodes runs its command, every other word is answered ILLEGAL. -/
def execWord (w : CmdWord) (s : State) : Host.Outcome State Fault Refusal :=
  match decode w with
  | .ok i => exec i s
  | .error _ => .next (respond .illegal false 0 s)

/-- R10 without reset. -/
def stepNoReset (s : State) : Host.Outcome State Fault Refusal :=
  if s.busy then buildStep s
  else
    match s.port with
    | some w => execWord w s
    | none => .next s

/-- R10. An illegal configuration is refused (R5). -/
def step (s : State) : Host.Outcome State Fault Refusal :=
  if s.cfg.legal then
    if s.rstNow then .next (applyReset s) else stepNoReset (tick s)
  else .refused .illegalConfiguration

/-- `s` with the word of `nbits` bits `w` presented at the port, ahead of every other, and no reset due before the next
step: `step` runs exactly it, at once if the builder is not busy, else in the first step after the build
(notes/assumptions/15.md). -/
def State.withFetchWord (s : State) (nbits w : Nat) : State := present (BitVec.ofNat 32 (w % 2 ^ nbits)) s

end Sys2Proof.Machine
end

