-- ==== Sys2Proof/Safety.lean ====
section
/-! DEFINITION. What claims are stated with: the responses of 30_encoding.md R87 as plain words, what counts as a good
response (60_exceptions.md R212), the invariant of every run (what each phase of the builder has written so far), and the
product of two polynomials modulo P, independent of the tables (40_builder.md R116). -/

namespace Sys2Proof.Machine

/-! ## Responses -/

/-- R87: the response word of an OK command, `DZ·0x1000 + RESULT`. -/
def okWord (dz : Bool) (result : Elem) : RspWord := BitVec.ofNat 16 (dz.toNat * 0x1000 + result.toNat)

/-- R130, R12: what an EXEC step that answers `r` leaves: RSP holds `r`, `r` is emitted, the word at the port is consumed,
and nothing else changes. -/
def answered (r : RspWord) (s : State) : State :=
  { s with rsp := r, emitted := r :: s.emitted, cmds := s.cmds.tail }

/-- The command `i` completes in `s` with the answer OK, `dz` and `result`, and changes nothing else. -/
abbrev Gives (s : State) (i : Instr) (dz : Bool) (result : Elem) : Prop :=
  exec i s = .next (answered (okWord dz result) s)

/-- R130: a state in which commands execute: a legal configuration and no build in progress. -/
abbrev Ready (s : State) : Prop := s.cfg.legal = true ∧ s.busy = false

/-- A legal instance with nothing due but the step itself: no reset comes before the next step. -/
abbrev Running (s : State) : Prop := s.cfg.legal = true ∧ s.rstNow = false

/-- `k` steps of the machine. -/
def runSteps (k : Nat) (s : State) : Result := Host.Core.run Sys2Proof.core k s

/-- R85, R201: in every phase in which commands execute, a word with opcode `opc` at the port whose RSV is not 0, or for
which `stray` holds, is answered ILLEGAL and has no other effect. -/
abbrev AnswersIllegal (opc : BitVec 4) (stray : CmdWord → Prop) : Prop :=
  ∀ (s : State) (w : CmdWord), Running s → s.busy = false → s.port = some w → fieldOpc w = opc →
    (fieldRsv w ≠ 0 ∨ stray w) → step s = .next (answered 0x2000 (tick s))

/-- R82: the value of an operand is below Q. -/
abbrev InRange (c : Config) (x : Elem) : Prop := x.toNat < c.q

/-- R212: a good response has CODE = OK and dz = 0 (the strict reading of U10). -/
def goodResponse (r : RspWord) : Bool := r.extractLsb' 12 4 == 0

/-- R212: a safe run so far is one in which every response was good. -/
def State.safe (s : State) : Bool := s.emitted.all goodResponse

/-! ## What the builder has written (40_builder.md R102 to R108) -/

/-- EXP with its first `k` cells written: EXP[i] = e_i (R102, R103). -/
def expCells (c : Config) (k : Nat) : Memory :=
  (List.range k).map fun i => (i, powX c.width (effPoly c) i)

/-- LOG after `k` iterations of the loop (R103). -/
def logAfter (c : Config) : Nat → Memory
  | 0 => []
  | k + 1 => (logAfter c k).write (powX c.width (effPoly c) (k + 1)).toNat (BitVec.ofNat 12 (k + 1))

/-- LOG after B_LOGFIX (R105). -/
def logFixed (c : Config) : Memory := (logAfter c c.n).write 1 0

/-- LOG[e] once the loop and the fix are over. -/
def logOf (c : Config) (e : Elem) : Elem := ((logFixed c).read e.toNat).getD 0

/-- R108: the cell (a, b) of MUL. -/
def mulWanted (c : Config) (a b : Elem) : Elem :=
  if a = 0 ∨ b = 0 then 0 else powX c.width (effPoly c) (mulExponent c (logOf c a) (logOf c b))

/-- R108: the cell (a, b) of DIV. -/
def divWanted (c : Config) (a b : Elem) : Elem :=
  if a = 0 ∨ b = 0 then 0 else powX c.width (effPoly c) (divExponent c (logOf c a) (logOf c b))

/-- EXP in each phase. -/
def expInPhase (s : State) : Memory :=
  match s.bs with
  | .idle | .exp0 => []
  | .expgen => expCells s.cfg s.i.toNat
  | .logfix | .check | .fill | .done | .failed => expCells s.cfg s.cfg.q

/-- LOG in each phase. -/
def logInPhase (s : State) : Memory :=
  match s.bs with
  | .idle | .exp0 => []
  | .expgen => logAfter s.cfg (s.i.toNat - 1)
  | .logfix => logAfter s.cfg s.cfg.n
  | .check | .fill | .done | .failed => logFixed s.cfg

/-- How many pairs the fill has written in each phase. -/
def filled (s : State) : Nat :=
  match s.bs with
  | .fill => pairAddr s.cfg s.a s.b
  | .done => s.cfg.q * s.cfg.q
  | .idle | .exp0 | .expgen | .logfix | .check | .failed => 0

/-- ORD_OK in each phase (R30, R103, R106). -/
def ordInPhase (s : State) : Bool :=
  match s.bs with
  | .idle | .exp0 => true
  | .expgen => noEarlyOne s.cfg.width (effPoly s.cfg) s.i.toNat
  | .logfix | .check | .fill | .done | .failed => configValid s.cfg

/-- The invariant of every run of the block: INIT_FLAG says whether a build was claimed (R26), the index registers stay
within [0, N] (R28, R29), and the tables hold exactly what the phase says has been written (R39, R40, R60). -/
structure Inv (s : State) : Prop where
  legal : s.cfg.legal = true
  initFlag : s.initFlag = (s.bs != .idle)
  index_i : s.i.toNat ≤ s.cfg.n
  index_a : s.a.toNat ≤ s.cfg.n
  index_b : s.b.toNat ≤ s.cfg.n
  expgen_from_one : s.bs = .expgen → 1 ≤ s.i.toNat
  exp : s.exp = expInPhase s
  log : s.log = logInPhase s
  mul : s.mul = pairCells s.cfg (mulWanted s.cfg) (filled s)
  div : s.div = pairCells s.cfg (divWanted s.cfg) (filled s)
  ordOk : s.ordOk = ordInPhase s
  valid_if_filling : s.bs = .fill ∨ s.bs = .done → configValid s.cfg = true
  invalid_if_failed : s.bs = .failed → configValid s.cfg = false

/-- Every table is in canonical form. -/
abbrev TablesCanonical (s : State) : Prop := s.exp.wf ∧ s.log.wf ∧ s.mul.wf ∧ s.div.wf

/-! ## Polynomial arithmetic, independent of the tables -/

/-- The product of two binary polynomials of degree at most 12, packed into integers (R7, R55): shift and xor, no carries,
no reduction. -/
def clmul (a b : Nat) : Nat :=
  (List.range 13).foldl (fun acc k => if a.testBit k then acc ^^^ (b <<< k) else acc) 0

/-- `v` is the remainder of the polynomial product of `a` and `b` modulo the degree-`w` polynomial `p`: it has degree below
`w` and differs from the product by a multiple of `p`. -/
def IsProductMod (w : Nat) (p : Poly) (a b v : Elem) : Prop :=
  v.toNat < 2 ^ w ∧ ∃ k : Nat, k < 2 ^ 12 ∧ clmul a.toNat b.toNat = clmul k p.toNat ^^^ v.toNat

end Sys2Proof.Machine
end

