-- ==== Sys2Proof/Certificates/Slice0/Obligations.lean ====
section
/-! DEFINITION. The statements for the provers, each from the numbered rules of spec/. `Gives s i dz v` says that command
`i` completes in `s` with the answer OK, and that nothing but RSP, the emitted responses and the port changes. -/

open Sys2Proof Sys2Proof.Machine

/-! ## Encoding -/

/-- 30_encoding.md R81, R83, R84, R89: decoding the word of a command gives the command back, with every operand at every
value its field can hold. -/
def Obligations.DecodeUndoesEncode : Prop := ∀ i : Instr, decode (encode i) = .ok i

/-- 30_encoding.md R81, R84, R85: a word has at most one reading, since it is the word of the command it decodes to. -/
def Obligations.EncodeUndoesDecode : Prop := ∀ (w : CmdWord) (i : Instr), decode w = .ok i → encode i = w

/-- 30_encoding.md R81: `cmd = OPC·2^28 + RSV·2^24 + A·2^12 + B`. -/
def Obligations.CommandWordIsItsFourFields : Prop :=
  ∀ w : CmdWord,
    w.toNat = (fieldOpc w).toNat * 2 ^ 28 + (fieldRsv w).toNat * 2 ^ 24 + (fieldA w).toNat * 2 ^ 12 + (fieldB w).toNat

/-- 30_encoding.md R85: the illegal words are those that match no row of R83, equivalently those with a reserved opcode, a
RSV that is not 0, or an unused field that is not 0; a row that matches is the opcode's own; an illegal word is answered
ILLEGAL with no other effect; the all-zero and the all-one word are illegal. -/
def Obligations.IllegalExactlyWhenNoRowMatches : Prop :=
  (∀ w : CmdWord, (∃ e, decode w = .error e) ↔ ∀ row ∈ opcodeRows, matchesRow w row = false) ∧
  (∀ (w : CmdWord) (k : Nat) (row : CmdWord × CmdWord), opcodeRows[k]? = some row → matchesRow w row = true →
    (fieldOpc w).toNat = k + 1) ∧
  (∀ w : CmdWord, (∃ e, decode w = .error e) ↔
    fieldOpc w ∈ ([0x0, 0xD, 0xE, 0xF] : List (BitVec 4)) ∨ fieldRsv w ≠ 0 ∨
    (fieldOpc w ∈ ([0x1, 0x6, 0x7, 0x8, 0x9] : List (BitVec 4)) ∧ fieldB w ≠ 0) ∨
    (fieldOpc w ∈ ([0xA, 0xB, 0xC] : List (BitVec 4)) ∧ (fieldA w ≠ 0 ∨ fieldB w ≠ 0))) ∧
  (∀ (s : State) (w : CmdWord) (e : DecodeError), Running s → s.busy = false → s.port = some w → decode w = .error e →
    step s = .next (answered 0x2000 (tick s))) ∧
  (∃ e, decode 0x00000000 = .error e) ∧ (∃ e, decode 0xFFFFFFFF = .error e)

/-- 30_encoding.md R93: ten worked words decode to the commands they stand for, and the eleventh, NEG 3 with a stray B, is
rejected. -/
def Obligations.WorkedWordsDecode : Prop :=
  decode 0x10005000 = .ok (.construct 5) ∧ decode 0x20005009 = .ok (.add 5 9) ∧ decode 0x40005009 = .ok (.mul 5 9) ∧
  decode 0x50007000 = .ok (.div 7 0) ∧ decode 0x70007000 = .ok (.inv 7) ∧ decode 0x80001000 = .ok (.exp 1) ∧
  decode 0x90000000 = .ok (.log 0) ∧ decode 0xA0000000 = .ok .width ∧ decode 0xB0000000 = .ok .maxval ∧
  decode 0xC0000000 = .ok .status ∧ decode 0x60003001 = .error .strayOperand

/-! ## Steps -/

/-- 00_scope.md R10, 41_field_ops.md R130: with no reset due and no build running, the step on a word that decodes to `i`
is `i`'s meaning; the step itself only counts down to the next reset (the model's rstIn, assumption log entry 5). -/
def Obligations.StepRunsTheDecodedCommand : Prop :=
  ∀ (s : State) (w : CmdWord) (i : Instr), Running s → s.busy = false → s.port = some w → decode w = .ok i →
    step s = exec i (tick s) ∧ tick s = { s with rstIn := (tick s).rstIn }

/-- 30_encoding.md R86, R87; 70_reset_and_hazards.md R234: a step either answers no command and leaves the port alone
(RSP then keeps its value but for reset), or consumes exactly the word at the port and emits exactly one response, laid out
as `CODE·2^13 + DZ·2^12 + RESULT`, with DZ and RESULT 0 unless CODE is OK. -/
def Obligations.OneResponsePerConsumedCommand : Prop :=
  ∀ s t : State, step s = .next t →
    (t.cmds = s.cmds ∧ t.emitted = s.emitted ∧ (t.rsp = s.rsp ∨ s.rstNow = true)) ∨
    (∃ (w : CmdWord) (code : Code) (dz : Bool) (result : Elem),
      s.cmds = w :: t.cmds ∧ t.emitted = t.rsp :: s.emitted ∧
      t.rsp.toNat = code.bits.toNat * 2 ^ 13 + dz.toNat * 2 ^ 12 + result.toNat ∧
      (code ≠ .ok → dz = false ∧ result = 0))

/-- 30_encoding.md R88: the decode order ILLEGAL, RANGE, then trigger or BADCFG for a TABLE command, then UNDEF, and
otherwise OK. -/
def Obligations.DecodeOrder : Prop :=
  ∀ (s : State) (w : CmdWord), Inv s → s.busy = false →
    (∀ e, decode w = .error e → execWord w s = .next (answered 0x2000 s)) ∧
    (∀ i, decode w = .ok i →
      (i.wellFormed s.cfg = true ↔ ∀ x ∈ i.operands, InRange s.cfg x) ∧
      (i.wellFormed s.cfg = false → execWord w s = .next (answered 0x4000 s)) ∧
      (i.wellFormed s.cfg = true →
        (i.needsTables = true → s.bs = .idle → execWord w s = .next (trigger s)) ∧
        (i.needsTables = true → s.bs = .failed → execWord w s = .next (answered 0x6000 s)) ∧
        ((i.needsTables = false ∨ s.bs = .done) →
          (i = .log 0 → execWord w s = .next (answered 0x8000 s)) ∧
          (i ≠ .log 0 → ∃ (dz : Bool) (v : Elem), execWord w s = .next (answered (okWord dz v) s)))))

/-- 00_scope.md R10; 70_reset_and_hazards.md R234: while BUSY the step is a BUILD step, `cmd_ready` is low, no command
executes, and the presented words and RSP stay as they are; with no build and no word the block only waits. That
`exec` while BUSY answers the state itself is the model's (DEDUCED, assumption log entry 11); that an idle step answers a
next state in which only the countdown has changed is the model's (DESIGN CHOICE, log entries 12 and 5). -/
def Obligations.BusyBlockHoldsTheCommand : Prop :=
  ∀ s : State, Running s →
    (s.busy = true → s.cmdReady = false ∧ step s = buildStep (tick s) ∧ (∀ i, exec i s = .next s) ∧
      ∀ t, step s = .next t → t.cmds = s.cmds ∧ t.emitted = s.emitted ∧ t.rsp = s.rsp) ∧
    (s.busy = false → s.port = none → step s = .next (tick s))

/-- 70_reset_and_hazards.md R230: reset, at any point, puts every piece of state at its value of R40; it consumes no
command and does not change the configuration. The last two clauses are the model's (DESIGN CHOICE): the list of emitted
responses is not cleared (assumption log entry 6), and the countdowns go on with their tail (log entry 5). -/
def Obligations.ResetPutsEveryPieceAtItsValue : Prop :=
  ∀ s : State, s.cfg.legal = true → s.rstNow = true →
    ∃ t, step s = .next t ∧ (∀ sp k, t.cell sp k = none) ∧ t.initFlag = false ∧ t.bs = .idle ∧ t.i = 0 ∧ t.a = 0 ∧
      t.b = 0 ∧ t.ordOk = true ∧ t.rsp = 0x0000 ∧ t.cmds = s.cmds ∧ t.cfg = s.cfg ∧ t.emitted = s.emitted ∧
      t.rstIn = s.rstIn.tail

/-- 10_state.md R40: the state after reset, for every configuration, and that `State.reset` is one such state of a legal
configuration (which one is the model's choice, assumption log entry 2, and not said here). -/
def Obligations.ResetStateValues : Prop :=
  (∀ c : Config, (∀ sp k, (State.resetOf c).cell sp k = none) ∧ (State.resetOf c).initFlag = false ∧
    (State.resetOf c).bs = .idle ∧ (State.resetOf c).i = 0 ∧ (State.resetOf c).a = 0 ∧ (State.resetOf c).b = 0 ∧
    (State.resetOf c).ordOk = true ∧ (State.resetOf c).rsp = 0x0000 ∧ (State.resetOf c).built = false ∧
    (State.resetOf c).cfgErr = false ∧ (State.resetOf c).busy = false ∧ (State.resetOf c).cmdReady = true ∧
    (State.resetOf c).stInit = false) ∧
  State.reset = State.resetOf State.reset.cfg ∧ State.reset.cfg.legal = true

/-- 00_scope.md R5: which configurations are legal, and that the model refuses every step and every command of an illegal
one. -/
def Obligations.IllegalConfigurationRefused : Prop :=
  (∀ c : Config, c.legal = true ↔
    1 ≤ c.width ∧ c.width ≤ 12 ∧
    (c.polyIn = 0 ∨ (c.polyIn.getLsbD c.width = true ∧ ∀ k, c.width < k → k ≤ 12 → c.polyIn.getLsbD k = false))) ∧
  (∀ s : State, s.cfg.legal = false →
    step s = .refused .illegalConfiguration ∧ ∀ i, exec i s = .refused .illegalConfiguration)

/-- 00_scope.md R2, R3: W and P_IN are fixed when the block is instantiated; no step changes them. -/
def Obligations.ConfigurationNeverChanges : Prop := ∀ s t : State, step s = .next t → t.cfg = s.cfg

/-! ## The builder -/

/-- 40_builder.md R101: TRIGGER, its effect and its only causes: a well-formed TABLE command in B_IDLE claims the build and
stays at the port; nothing else leaves B_IDLE. -/
def Obligations.TriggerClaimsTheBuild : Prop :=
  (∀ (s : State) (w : CmdWord) (i : Instr), Running s → s.bs = .idle → s.port = some w → decode w = .ok i →
    i.wellFormed s.cfg = true → i.needsTables = true →
    step s = .next { tick s with initFlag := true, ordOk := true, bs := .exp0 }) ∧
  (∀ s t : State, s.bs = .idle → step s = .next t → t.bs ≠ .idle →
    ∃ w i, s.port = some w ∧ decode w = .ok i ∧ i.wellFormed s.cfg = true ∧ i.needsTables = true)

/-- 40_builder.md R102: the step of phase B_EXP0. -/
def Obligations.Exp0WritesOne : Prop :=
  ∀ s : State, Running s → s.bs = .exp0 →
    step s = .next { tick s with exp := s.exp.write 0 1, i := 1, bs := .expgen }

/-- 40_builder.md R103: one iteration of the exp/log loop, under the rule's precondition. -/
def Obligations.ExpGenWritesTheNextPower : Prop :=
  ∀ (s : State) (u : Elem), Running s → s.bs = .expgen → 1 ≤ s.i.toNat → s.i.toNat ≤ s.cfg.n →
    s.cell .exp (s.i.toNat - 1) = some u →
    ∃ v : Elem,
      v.toNat = (if s.cfg.q ≤ 2 * u.toNat then (2 * u.toNat) ^^^ (effPoly s.cfg).toNat else 2 * u.toNat) % s.cfg.q ∧
      step s = .next { tick s with
        exp := s.exp.write s.i.toNat v
        log := s.log.write v.toNat s.i
        ordOk := if (s.i.toNat ≠ s.cfg.n ∧ v = 1) ∨ (s.i.toNat = s.cfg.n ∧ v ≠ 1) then false else s.ordOk
        i := if s.i.toNat = s.cfg.n then s.i else s.i + 1
        bs := if s.i.toNat = s.cfg.n then .logfix else .expgen }

/-- 40_builder.md R105: the step of phase B_LOGFIX. -/
def Obligations.LogFixClearsLogOfOne : Prop :=
  ∀ s : State, Running s → s.bs = .logfix → step s = .next { tick s with log := s.log.write 1 0, bs := .check }

/-- 40_builder.md R107: the step of phase B_CHECK. -/
def Obligations.CheckDecidesFillOrFailed : Prop :=
  ∀ s : State, Running s → s.bs = .check →
    (s.ordOk = true → step s = .next { tick s with a := 0, b := 0, bs := .fill }) ∧
    (s.ordOk = false → step s = .next { tick s with bs := .failed })

/-- 40_builder.md R108: one step of the fill: one cell of MUL, one of DIV, then the next pair in row order. -/
def Obligations.FillWritesOnePair : Prop :=
  ∀ (s : State) (m d : Elem), Running s → s.bs = .fill → s.a.toNat ≤ s.cfg.n → s.b.toNat ≤ s.cfg.n →
    (((s.a = 0 ∨ s.b = 0) ∧ m = 0 ∧ d = 0) ∨
      (s.a ≠ 0 ∧ s.b ≠ 0 ∧ ∃ la lb : Elem, s.cell .log s.a.toNat = some la ∧ s.cell .log s.b.toNat = some lb ∧
        s.cell .exp ((la.toNat + lb.toNat) % s.cfg.n) = some m ∧
        s.cell .exp ((la.toNat + s.cfg.n - lb.toNat) % s.cfg.n) = some d)) →
    let t : State := { tick s with
      mul := s.mul.write (s.a.toNat * s.cfg.q + s.b.toNat) m
      div := s.div.write (s.a.toNat * s.cfg.q + s.b.toNat) d }
    step s = .next
      (if s.b.toNat ≠ s.cfg.n then { t with b := s.b + 1 }
       else if s.a.toNat ≠ s.cfg.n then { t with a := s.a + 1, b := 0 }
       else { t with bs := .done })

/-- 10_state.md R25, 20_memory.md R57, R59: a write of a cell inside its table succeeds, puts its value there, and leaves
every other cell of every table and every register alone. -/
def Obligations.CellWriteReadsBack : Prop :=
  ∀ (s : State) (sp : Space) (k : Nat) (v : Elem), k < cells s.cfg sp →
    ∃ t, s.writeCell sp k v = .ok t ∧ t.cell sp k = some v ∧
      (∀ sp' k', ¬(sp' = sp ∧ k' = k) → t.cell sp' k' = s.cell sp' k') ∧
      { t with exp := s.exp, log := s.log, mul := s.mul, div := s.div } = s

/-- 40_builder.md R104: the reduction of the loop is exact: the test is bit W of t, bit W-1 of the old power; no bit is
dropped; and the result is x times the old power modulo P. -/
def Obligations.ReductionIsExact : Prop :=
  ∀ (c : Config) (u : Elem), c.legal = true → InRange c u →
    (c.q ≤ 2 * u.toNat ↔ (2 * u.toNat).testBit c.width = true) ∧
    (c.q ≤ 2 * u.toNat ↔ u.getLsbD (c.width - 1) = true) ∧
    (xtime c.width (effPoly c) u).toNat =
      (if c.q ≤ 2 * u.toNat then (2 * u.toNat) ^^^ (effPoly c).toNat else 2 * u.toNat) ∧
    IsProductMod c.width (effPoly c) 2 u (xtime c.width (effPoly c) u)

/-- 40_builder.md R109: the exponents of the fill, their ranges and their reduction. -/
def Obligations.ExponentsReduceModN : Prop :=
  ∀ (c : Config) (la lb : Elem), c.legal = true → la.toNat < c.n → lb.toNat < c.n →
    la.toNat + lb.toNat ≤ 2 * c.n - 2 ∧ 1 ≤ la.toNat + c.n - lb.toNat ∧ la.toNat + c.n - lb.toNat ≤ 2 * c.n - 1 ∧
    mulExponent c la lb = (if c.n ≤ la.toNat + lb.toNat then la.toNat + lb.toNat - c.n else la.toNat + lb.toNat) ∧
    divExponent c la lb =
      (if c.n ≤ la.toNat + c.n - lb.toNat then la.toNat + c.n - lb.toNat - c.n else la.toNat + c.n - lb.toNat) ∧
    mulExponent c la lb < c.n ∧ divExponent c la lb < c.n ∧ (divExponent c la lb + lb.toNat) % c.n = la.toNat

/-- 40_builder.md R100: the transitions of BS, each with its condition; there are no others. -/
def Obligations.PhaseTransitions : Prop :=
  ∀ s t : State, step s = .next t →
    (s.rstNow = true → t.bs = .idle) ∧
    (s.rstNow = false →
      match s.bs with
      | .idle =>
        (t.bs = .exp0 ∧ ∃ w i, s.port = some w ∧ decode w = .ok i ∧ i.wellFormed s.cfg = true ∧ i.needsTables = true) ∨
        (t.bs = .idle ∧
          ¬∃ w i, s.port = some w ∧ decode w = .ok i ∧ i.wellFormed s.cfg = true ∧ i.needsTables = true)
      | .exp0 => t.bs = .expgen
      | .expgen => (s.i.toNat ≠ s.cfg.n → t.bs = .expgen ∧ t.i = s.i + 1) ∧ (s.i.toNat = s.cfg.n → t.bs = .logfix)
      | .logfix => t.bs = .check
      | .check => (s.ordOk = true → t.bs = .fill ∧ t.a = 0 ∧ t.b = 0) ∧ (s.ordOk = false → t.bs = .failed)
      | .fill =>
        (¬(s.a.toNat = s.cfg.n ∧ s.b.toNat = s.cfg.n) → t.bs = .fill) ∧
        (s.a.toNat = s.cfg.n ∧ s.b.toNat = s.cfg.n → t.bs = .done)
      | .done => t.bs = .done
      | .failed => t.bs = .failed)

/-- 10_state.md R26: INIT_FLAG is 1 exactly when BS is not B_IDLE, in every run; only TRIGGER sets it and only reset clears
it. -/
def Obligations.InitFlagSaysABuildWasClaimed : Prop :=
  ∀ s t : State, step s = .next t →
    (s.initFlag = (s.bs != .idle) → t.initFlag = (t.bs != .idle)) ∧
    (s.initFlag = false → t.initFlag = true → s.bs = .idle ∧ t.bs = .exp0) ∧
    (s.initFlag = true → t.initFlag = false → s.rstNow = true)

/-- 20_memory.md R62, 40_builder.md R112: between two resets the builder leaves B_IDLE at most once, since no run without a
reset comes back to B_IDLE and a build starts from B_IDLE only. -/
def Obligations.AtMostOneBuild : Prop :=
  (∀ (k : Nat) (s t : State), s.rstIn = [] → s.bs ≠ .idle → runSteps k s = .next t → t.bs ≠ .idle) ∧
  (∀ s t : State, step s = .next t → t.bs = .exp0 → s.bs = .idle)

/-- 10_state.md R41, 40_builder.md R110: once BS = B_DONE nothing changes until reset but RSP and the environment's side of
the ports, however long the run. -/
def Obligations.DoneTablesNeverChange : Prop :=
  ∀ (k : Nat) (s t : State), s.rstIn = [] → s.bs = .done → runSteps k s = .next t →
    t = { s with rsp := t.rsp, cmds := t.cmds, emitted := t.emitted }

/-- 40_builder.md R111: B_FAILED is terminal until reset; TABLE commands are answered BADCFG, PURE commands execute, MUL and
DIV are wholly NOVALUE, and no state of the same configuration has a build that succeeds. -/
def Obligations.FailedIsTerminal : Prop :=
  (∀ (k : Nat) (s t : State), s.rstIn = [] → s.bs = .failed → runSteps k s = .next t →
    t = { s with rsp := t.rsp, cmds := t.cmds, emitted := t.emitted }) ∧
  (∀ (s : State) (i : Instr), s.cfg.legal = true → s.bs = .failed → i.wellFormed s.cfg = true →
    (i.needsTables = true → exec i s = .next (answered 0x6000 s)) ∧
    (i.needsTables = false → ∃ v, Gives s i false v)) ∧
  (∀ s : State, Inv s → s.bs = .failed → ∀ k, s.cell .mul k = none ∧ s.cell .div k = none) ∧
  (∀ s t : State, Inv s → Inv t → s.bs = .failed → t.cfg = s.cfg → t.bs ≠ .fill ∧ t.bs ≠ .done)

/-- 20_memory.md R67, R63: while BS is not B_DONE no command depends on the tables: with any other tables it does the same
and leaves those tables as they are. -/
def Obligations.NoTableReadBeforeDone : Prop :=
  ∀ (i : Instr) (s t : State) (e l m d : Memory), s.bs ≠ .done → exec i s = .next t →
    exec i { s with exp := e, log := l, mul := m, div := d } = .next { t with exp := e, log := l, mul := m, div := d }

/-- 41_field_ops.md R130: the frame of every command: no cell of any table, no parameter and no index register changes; what
changes is nothing (held while BUSY), the claim of the build (TRIGGER), or RSP with the consumed word and the emitted
response (EXEC). -/
def Obligations.CommandFrame : Prop :=
  ∀ (i : Instr) (s t : State), exec i s = .next t →
    (∀ sp k, t.cell sp k = s.cell sp k) ∧ t.cfg = s.cfg ∧ t.i = s.i ∧ t.a = s.a ∧ t.b = s.b ∧ t.rstIn = s.rstIn ∧
    ((s.busy = true ∧ t = s) ∨
      (s.bs = .idle ∧ i.needsTables = true ∧ i.wellFormed s.cfg = true ∧
        t = { s with initFlag := true, ordOk := true, bs := .exp0 }) ∨
      (s.busy = false ∧ t = { s with rsp := t.rsp, emitted := t.rsp :: s.emitted, cmds := s.cmds.tail }))

/-! ## The commands -/

/-- 41_field_ops.md R131: ADD a, b. -/
def Obligations.AddAnswersXor : Prop :=
  (∀ a b : Elem, (encode (.add a b)).toNat = 0x20000000 + a.toNat * 2 ^ 12 + b.toNat) ∧
  AnswersIllegal 0x2 (fun _ => False) ∧
  ∀ (s : State) (a b : Elem), Ready s →
    (InRange s.cfg a → InRange s.cfg b →
      Gives s (.add a b) false (a ^^^ b) ∧ InRange s.cfg (a ^^^ b) ∧ Gives s (.add a a) false 0 ∧
      Gives s (.add a 0) false a) ∧
    (¬(InRange s.cfg a ∧ InRange s.cfg b) → exec (.add a b) s = .next (answered 0x4000 s))

/-- 41_field_ops.md R132: SUB a, b. -/
def Obligations.SubAnswersXor : Prop :=
  (∀ a b : Elem, (encode (.sub a b)).toNat = 0x30000000 + a.toNat * 2 ^ 12 + b.toNat) ∧
  AnswersIllegal 0x3 (fun _ => False) ∧
  ∀ (s : State) (a b : Elem), Ready s →
    (InRange s.cfg a → InRange s.cfg b →
      Gives s (.sub a b) false (a ^^^ b) ∧ Gives s (.sub b a) false (a ^^^ b) ∧ Gives s (.add a b) false (a ^^^ b) ∧
      Gives s (.sub a a) false 0) ∧
    (¬(InRange s.cfg a ∧ InRange s.cfg b) → exec (.sub a b) s = .next (answered 0x4000 s))

/-- 41_field_ops.md R133: MUL a, b. -/
def Obligations.MulAnswersTheMulCell : Prop :=
  (∀ a b : Elem, (encode (.mul a b)).toNat = 0x40000000 + a.toNat * 2 ^ 12 + b.toNat) ∧
  AnswersIllegal 0x4 (fun _ => False) ∧
  (∀ (s : State) (a b : Elem), Ready s → ¬(InRange s.cfg a ∧ InRange s.cfg b) →
    exec (.mul a b) s = .next (answered 0x4000 s)) ∧
  (∀ (s : State) (a b : Elem), s.cfg.legal = true → InRange s.cfg a → InRange s.cfg b →
    (s.bs = .idle → exec (.mul a b) s = .next (trigger s)) ∧
    (s.bs = .failed → exec (.mul a b) s = .next (answered 0x6000 s)) ∧
    (∀ v, s.bs = .done → s.cell .mul (a.toNat * s.cfg.q + b.toNat) = some v → Gives s (.mul a b) false v)) ∧
  (∀ (s : State) (a b : Elem), Inv s → s.bs = .done → InRange s.cfg a → InRange s.cfg b →
    ∃ v, s.cell .mul (a.toNat * s.cfg.q + b.toNat) = some v ∧ Gives s (.mul a b) false v ∧ Gives s (.mul b a) false v ∧
      Gives s (.mul a 1) false a ∧ (v = 0 ↔ a = 0 ∨ b = 0) ∧ IsProductMod s.cfg.width (effPoly s.cfg) a b v)

/-- 41_field_ops.md R134, 43_arith_laws.md R178: DIV a, b, and that it undoes MUL. -/
def Obligations.DivAnswersTheDivCell : Prop :=
  (∀ a b : Elem, (encode (.div a b)).toNat = 0x50000000 + a.toNat * 2 ^ 12 + b.toNat) ∧
  AnswersIllegal 0x5 (fun _ => False) ∧
  (∀ (s : State) (a b : Elem), Ready s → ¬(InRange s.cfg a ∧ InRange s.cfg b) →
    exec (.div a b) s = .next (answered 0x4000 s)) ∧
  (∀ (s : State) (a b : Elem), s.cfg.legal = true → InRange s.cfg a → InRange s.cfg b →
    (s.bs = .idle → exec (.div a b) s = .next (trigger s)) ∧
    (s.bs = .failed → exec (.div a b) s = .next (answered 0x6000 s)) ∧
    (∀ v, s.bs = .done → s.cell .div (a.toNat * s.cfg.q + b.toNat) = some v → Gives s (.div a b) (b == 0) v)) ∧
  (∀ (s : State) (a b : Elem), Inv s → s.bs = .done → InRange s.cfg a → InRange s.cfg b →
    Gives s (.div a 1) false a ∧ Gives s (.div a 0) true 0 ∧ (a ≠ 0 → Gives s (.div a a) false 1) ∧
    (b ≠ 0 → Gives s (.div 0 b) false 0) ∧
    (b ≠ 0 → ∃ v, Gives s (.div a b) false v ∧ InRange s.cfg v ∧ Gives s (.mul v b) false a ∧
      ∀ c, InRange s.cfg c → Gives s (.mul c b) false a → c = v) ∧
    (b ≠ 0 → ∃ m, Gives s (.mul a b) false m ∧ Gives s (.div m b) false a) ∧
    (b = 0 → Gives s (.mul a b) false 0 ∧ Gives s (.div 0 b) true 0))

/-- 41_field_ops.md R135: NEG a. -/
def Obligations.NegAnswersItsOperand : Prop :=
  (∀ a : Elem, (encode (.neg a)).toNat = 0x60000000 + a.toNat * 2 ^ 12) ∧
  AnswersIllegal 0x6 (fun w => fieldB w ≠ 0) ∧
  ∀ (s : State) (a : Elem), Ready s →
    (InRange s.cfg a → Gives s (.neg a) false a ∧ Gives s (.add a a) false 0) ∧
    (¬InRange s.cfg a → exec (.neg a) s = .next (answered 0x4000 s))

/-- 41_field_ops.md R136, 43_arith_laws.md R177: INV a, and the inverse round trip. -/
def Obligations.InvAnswersTheReciprocal : Prop :=
  (∀ a : Elem, (encode (.inv a)).toNat = 0x70000000 + a.toNat * 2 ^ 12) ∧
  AnswersIllegal 0x7 (fun w => fieldB w ≠ 0) ∧
  (∀ (s : State) (a : Elem), Ready s → ¬InRange s.cfg a → exec (.inv a) s = .next (answered 0x4000 s)) ∧
  (∀ (s : State) (a : Elem), s.cfg.legal = true → InRange s.cfg a →
    (s.bs = .idle → exec (.inv a) s = .next (trigger s)) ∧
    (s.bs = .failed → exec (.inv a) s = .next (answered 0x6000 s)) ∧
    (∀ v, s.bs = .done → s.cell .div (1 * s.cfg.q + a.toNat) = some v → Gives s (.inv a) (a == 0) v)) ∧
  (∀ s : State, Inv s → s.bs = .done →
    Gives s (.inv 0) true 0 ∧ Gives s (.mul 0 0) false 0 ∧ Gives s (.inv 1) false 1 ∧
    ∀ a : Elem, InRange s.cfg a → a ≠ 0 →
      ∃ v l : Elem, Gives s (.inv a) false v ∧ Gives s (.div 1 a) false v ∧ Gives s (.mul a v) false 1 ∧
        Gives s (.inv v) false a ∧ s.cell .log a.toNat = some l ∧ s.cell .exp ((s.cfg.n - l.toNat) % s.cfg.n) = some v)

/-- 42_access_ops.md R150: CONSTRUCT v. -/
def Obligations.ConstructAnswersItsValue : Prop :=
  (∀ v : Elem, (encode (.construct v)).toNat = 0x10000000 + v.toNat * 2 ^ 12) ∧
  AnswersIllegal 0x1 (fun w => fieldB w ≠ 0) ∧
  ∀ (s : State) (v : Elem), Ready s →
    (¬InRange s.cfg v → exec (.construct v) s = .next (answered 0x4000 s)) ∧
    (InRange s.cfg v →
      (s.bs = .idle → exec (.construct v) s = .next (trigger s)) ∧
      (s.bs = .failed → exec (.construct v) s = .next (answered 0x6000 s)) ∧
      (s.bs = .done → Gives s (.construct v) false v))

/-- 42_access_ops.md R151: EXP i. -/
def Obligations.ExpAnswersTheExpCell : Prop :=
  (∀ i : Elem, (encode (.exp i)).toNat = 0x80000000 + i.toNat * 2 ^ 12) ∧
  AnswersIllegal 0x8 (fun w => fieldB w ≠ 0) ∧
  (∀ (s : State) (i : Elem), Ready s → ¬InRange s.cfg i → exec (.exp i) s = .next (answered 0x4000 s)) ∧
  (∀ (s : State) (i : Elem), s.cfg.legal = true → InRange s.cfg i →
    (s.bs = .idle → exec (.exp i) s = .next (trigger s)) ∧
    (s.bs = .failed → exec (.exp i) s = .next (answered 0x6000 s)) ∧
    (∀ v, s.bs = .done → s.cell .exp i.toNat = some v → Gives s (.exp i) false v)) ∧
  (∀ s : State, Inv s → s.bs = .done →
    (∀ i : Elem, InRange s.cfg i → ∃ v, Gives s (.exp i) false v ∧ InRange s.cfg v) ∧
    Gives s (.exp 0) false 1 ∧ Gives s (.exp (BitVec.ofNat 12 s.cfg.n)) false 1 ∧
    (2 ≤ s.cfg.width → Gives s (.exp 1) false 2))

/-- 42_access_ops.md R152: LOG e. -/
def Obligations.LogAnswersTheLogCell : Prop :=
  (∀ e : Elem, (encode (.log e)).toNat = 0x90000000 + e.toNat * 2 ^ 12) ∧
  AnswersIllegal 0x9 (fun w => fieldB w ≠ 0) ∧
  (∀ (s : State) (e : Elem), Ready s → ¬InRange s.cfg e → exec (.log e) s = .next (answered 0x4000 s)) ∧
  (∀ (s : State) (e : Elem), s.cfg.legal = true → InRange s.cfg e →
    (s.bs = .idle → exec (.log e) s = .next (trigger s)) ∧
    (s.bs = .failed → exec (.log e) s = .next (answered 0x6000 s)) ∧
    (s.bs = .done → e = 0 → exec (.log e) s = .next (answered 0x8000 s)) ∧
    (∀ v, s.bs = .done → e ≠ 0 → s.cell .log e.toNat = some v → Gives s (.log e) false v)) ∧
  (∀ s : State, Inv s → s.bs = .done →
    (∀ e : Elem, InRange s.cfg e → e ≠ 0 →
      ∃ v : Elem, v.toNat < s.cfg.n ∧ Gives s (.log e) false v ∧ Gives s (.exp v) false e) ∧
    (∀ i : Elem, InRange s.cfg i →
      ∃ x : Elem, Gives s (.exp i) false x ∧ Gives s (.log x) false (BitVec.ofNat 12 (i.toNat % s.cfg.n))) ∧
    Gives s (.log 1) false 0 ∧ (2 ≤ s.cfg.width → Gives s (.log 2) false 1))

/-- 42_access_ops.md R153: WIDTH, in every phase in which commands execute. -/
def Obligations.WidthAnswersW : Prop :=
  encode .width = 0xA0000000 ∧ AnswersIllegal 0xA (fun w => fieldA w ≠ 0 ∨ fieldB w ≠ 0) ∧
  ∀ s : State, Ready s →
    ∃ v : Elem, Gives s .width false v ∧ v.toNat = s.cfg.width ∧ 1 ≤ s.cfg.width ∧ s.cfg.width ≤ 12

/-- 42_access_ops.md R154: MAXVAL, in every phase in which commands execute. -/
def Obligations.MaxvalAnswersN : Prop :=
  encode .maxval = 0xB0000000 ∧ AnswersIllegal 0xB (fun w => fieldA w ≠ 0 ∨ fieldB w ≠ 0) ∧
  ∀ s : State, Ready s → ∃ v : Elem, Gives s .maxval false v ∧ v.toNat = 2 ^ s.cfg.width - 1

/-- 42_access_ops.md R155, 10_state.md R33: STATUS answers the status word and triggers nothing; with INIT_FLAG as R26 has
it, the word is 0x000, 0x003 or 0x005. -/
def Obligations.StatusAnswersTheStatusWord : Prop :=
  encode .status = 0xC0000000 ∧ AnswersIllegal 0xC (fun w => fieldA w ≠ 0 ∨ fieldB w ≠ 0) ∧
  ∀ s : State, Ready s →
    (∃ v : Elem, Gives s .status false v ∧
      v.toNat = s.initFlag.toNat + 2 * (s.bs == .done : Bool).toNat + 4 * (s.bs == .failed : Bool).toNat) ∧
    (s.initFlag = (s.bs != .idle) →
      (s.bs = .idle ∧ Gives s .status false 0x000) ∨ (s.bs = .done ∧ Gives s .status false 0x003) ∨
      (s.bs = .failed ∧ Gives s .status false 0x005))

/-! ## Invariants -/

/-- The invariant of every run holds after reset (10_state.md R40), whatever REQ presents. -/
def Obligations.ResetMeetsTheInvariant : Prop :=
  ∀ (c : Config) (cmds : List CmdWord) (rst : List Nat) (out : List RspWord), c.legal = true →
    Inv { State.resetOf c with cmds := cmds, rstIn := rst, emitted := out }

/-- Every step keeps the invariant: in every phase the tables hold exactly what the rules say has been written
(40_builder.md R102 to R108; 10_state.md R26, R28, R29, R39). -/
def Obligations.StepKeepsTheInvariant : Prop := ∀ s t : State, Inv s → step s = .next t → Inv t

/-- 10_state.md R25, 20_memory.md R59, 60_exceptions.md R212: no step reads a NOVALUE cell or forms an address outside a
table: from every state of the invariant a step answers a next state. (That an idle step, with no word presented, answers
a next state too is the model's choice, assumption log entry 12.) -/
def Obligations.NoStepStops : Prop := ∀ s : State, Inv s → ∃ t, step s = .next t

/-- Every step keeps every table in its canonical form, from every state; and the reset tables have it. -/
def Obligations.StepKeepsTablesCanonical : Prop :=
  (∀ s t : State, TablesCanonical s → step s = .next t → TablesCanonical t) ∧
  (∀ c : Config, TablesCanonical (State.resetOf c)) ∧ ∀ s : State, Inv s → TablesCanonical s

/-! ## The build -/

/-- 40_builder.md R113: with no reset scheduled the step-by-step build ends in the state the function BUILD gives, and the
command that triggered it is then executed in that state. -/
def Obligations.BuildEqualsTheWholeBuild : Prop :=
  (∀ s : State, Inv s → s.bs = .exp0 → s.rstIn = [] → runSteps (buildSteps s.cfg) s = .next (buildWhole s)) ∧
  (∀ (s : State) (w : CmdWord) (i : Instr), Inv s → s.bs = .idle → s.rstIn = [] → s.port = some w → decode w = .ok i →
    i.wellFormed s.cfg = true → i.needsTables = true →
    runSteps (buildSteps s.cfg + 2) s = exec i (buildWhole (trigger s)))

/-- 40_builder.md R114, R115: a build of a valid configuration takes Q·Q + Q + 2 BUILD steps to B_DONE, a build that fails
takes Q + 2 steps to B_FAILED, and the block is BUSY until then. -/
def Obligations.BuildTakesTheCountedSteps : Prop :=
  ∀ s : State, Inv s → s.bs = .exp0 → s.rstIn = [] →
    (configValid s.cfg = true →
      (∃ t, runSteps (s.cfg.q * s.cfg.q + s.cfg.q + 2) s = .next t ∧ t.bs = .done) ∧
      ∀ k, k < s.cfg.q * s.cfg.q + s.cfg.q + 2 → ∃ t, runSteps k s = .next t ∧ t.busy = true) ∧
    (configValid s.cfg = false →
      (∃ t, runSteps (s.cfg.q + 2) s = .next t ∧ t.bs = .failed) ∧
      ∀ k, k < s.cfg.q + 2 → ∃ t, runSteps k s = .next t ∧ t.busy = true)

/-- 40_builder.md R116: the tables of a valid build, for every configuration: the powers of x, their logarithms, the
products and quotients of polynomials modulo P; and they depend on the configuration alone. -/
def Obligations.TablesAreTheFieldsTables : Prop :=
  (∀ s : State, Inv s → s.bs = .done →
    s.cell .exp 0 = some 1 ∧ s.cell .exp s.cfg.n = some 1 ∧ (2 ≤ s.cfg.width → s.cell .exp 1 = some 2) ∧
    (∀ i < s.cfg.n, ∃ u v : Elem, s.cell .exp i = some u ∧ s.cell .exp (i + 1) = some v ∧
      IsProductMod s.cfg.width (effPoly s.cfg) 2 u v) ∧
    (∀ x : Elem, InRange s.cfg x → x ≠ 0 → ∃! i, i < s.cfg.n ∧ s.cell .exp i = some x) ∧
    (∀ i < s.cfg.n, ∃ x : Elem, s.cell .exp i = some x ∧ s.cell .log x.toNat = some (BitVec.ofNat 12 i)) ∧
    s.cell .log 1 = some 0 ∧ s.cell .log 0 = none ∧
    (∀ a b : Elem, InRange s.cfg a → InRange s.cfg b →
      ∃ m d : Elem, s.cell .mul (a.toNat * s.cfg.q + b.toNat) = some m ∧
        IsProductMod s.cfg.width (effPoly s.cfg) a b m ∧ s.cell .div (a.toNat * s.cfg.q + b.toNat) = some d ∧
        (b = 0 → d = 0) ∧
        (b ≠ 0 → ∀ c : Elem, InRange s.cfg c → (s.cell .mul (c.toNat * s.cfg.q + b.toNat) = some a ↔ c = d)))) ∧
  (∀ s t : State, Inv s → Inv t → s.bs = .done → t.bs = .done → s.cfg = t.cfg → ∀ sp k, s.cell sp k = t.cell sp k)

/-- 40_builder.md R106: VALID, and its equivalence with the bijection of exponents onto the nonzero elements (for W = 1 the
clause e_N = e_0 is needed: P = 0x2 has a bijection and is not valid); the builder's ORD_OK decides it. -/
def Obligations.ValidExactlyWhenPowersAreABijection : Prop :=
  (∀ c : Config, c.legal = true →
    (configValid c = true ↔
      powX c.width (effPoly c) c.n = 1 ∧ ∀ i, 1 ≤ i → i < c.n → powX c.width (effPoly c) i ≠ 1) ∧
    (configValid c = true ↔
      powX c.width (effPoly c) c.n = powX c.width (effPoly c) 0 ∧
      (∀ i < c.n, powX c.width (effPoly c) i ≠ 0) ∧
      ∀ x : Elem, InRange c x → x ≠ 0 → ∃! i, i < c.n ∧ powX c.width (effPoly c) i = x)) ∧
  (∀ s : State, Inv s → s.bs = .logfix → s.ordOk = configValid s.cfg)

/-- 00_scope.md R4: whatever DEFAULT_POLY is, for every w it has bit w set, no higher bit set, and is valid; for w = 8 the
table has exp[1] = 2 and exp[255] = 1. (That it is kept to R4's limits by a fallback is assumption log entry 3.) -/
def Obligations.DefaultPolynomialIsAllowed : Prop :=
  (∀ w : Nat, 1 ≤ w → w ≤ 12 →
    (defaultPoly w).getLsbD w = true ∧ (∀ k, w < k → (defaultPoly w).getLsbD k = false) ∧
    validPoly w (defaultPoly w) = true) ∧
  powX 8 (defaultPoly 8) 1 = 2 ∧ powX 8 (defaultPoly 8) 255 = 1

/-- 43_arith_laws.md R182: for W = 4 exactly 0x13 and 0x19 are valid, and their EXP tables first differ at index 4, 3
against 9. -/
def Obligations.TwoValidPolynomialsOfDegreeFour : Prop :=
  (∀ p : Poly, p.toNat < 32 → 16 ≤ p.toNat → (validPoly 4 p = true ↔ p = 0x13 ∨ p = 0x19)) ∧
  (∀ i < 4, powX 4 0x13 i = powX 4 0x19 i) ∧ powX 4 0x13 4 = 3 ∧ powX 4 0x19 4 = 9

/-! ## The laws of the arithmetic, in B_DONE -/

/-- 43_arith_laws.md R170, R173: EXP and LOG are mutual inverses on the nonzero elements; LOG[0] is in no invariant. -/
def Obligations.ExpAndLogAreMutualInverses : Prop :=
  ∀ s : State, Inv s → s.bs = .done →
    (∀ e : Elem, InRange s.cfg e → e ≠ 0 →
      ∃ l : Elem, s.cell .log e.toNat = some l ∧ s.cell .exp l.toNat = some e) ∧
    (∀ i ≤ s.cfg.n, ∃ x : Elem, s.cell .exp i = some x ∧ s.cell .log x.toNat = some (BitVec.ofNat 12 (i % s.cfg.n))) ∧
    s.cell .log 0 = none ∧ s.cell .log 1 = some 0 ∧ s.cell .exp 0 = some 1

/-- 43_arith_laws.md R171: MUL[a][b] is 0 iff a = 0 or b = 0, and otherwise EXP at the sum of the logarithms mod N. -/
def Obligations.MulCellIsTheSumOfLogarithms : Prop :=
  ∀ (s : State) (a b : Elem), Inv s → s.bs = .done → InRange s.cfg a → InRange s.cfg b →
    ∃ m : Elem, s.cell .mul (a.toNat * s.cfg.q + b.toNat) = some m ∧ (m = 0 ↔ a = 0 ∨ b = 0) ∧
      (a ≠ 0 → b ≠ 0 → ∃ la lb : Elem, s.cell .log a.toNat = some la ∧ s.cell .log b.toNat = some lb ∧
        s.cell .exp ((la.toNat + lb.toNat) % s.cfg.n) = some m)

/-- 43_arith_laws.md R172: DIV[a][b] is 0 when a = 0 or b = 0, and otherwise EXP at the difference of the logarithms, never
0. -/
def Obligations.DivCellIsTheDifferenceOfLogarithms : Prop :=
  ∀ (s : State) (a b : Elem), Inv s → s.bs = .done → InRange s.cfg a → InRange s.cfg b →
    ∃ d : Elem, s.cell .div (a.toNat * s.cfg.q + b.toNat) = some d ∧ (d = 0 ↔ a = 0 ∨ b = 0) ∧
      (a ≠ 0 → b ≠ 0 → ∃ la lb : Elem, s.cell .log a.toNat = some la ∧ s.cell .log b.toNat = some lb ∧
        s.cell .exp ((la.toNat + s.cfg.n - lb.toNat) % s.cfg.n) = some d)

/-- 43_arith_laws.md R174: closure, and totality: in B_DONE every well-formed command is answered by exactly one
response. -/
def Obligations.OperationsAreClosedAndTotal : Prop :=
  (∀ (s : State) (a b : Elem), Ready s → InRange s.cfg a → InRange s.cfg b →
    (∃ v, Gives s (.add a b) false v ∧ InRange s.cfg v) ∧ (∃ v, Gives s (.sub a b) false v ∧ InRange s.cfg v) ∧
    (∃ v, Gives s (.neg a) false v ∧ InRange s.cfg v)) ∧
  (∀ (s : State) (a b : Elem), Inv s → s.bs = .done → InRange s.cfg a → InRange s.cfg b →
    (∃ v, Gives s (.mul a b) false v ∧ InRange s.cfg v) ∧ (∃ dz v, Gives s (.div a b) dz v ∧ InRange s.cfg v) ∧
    (∃ dz v, Gives s (.inv a) dz v ∧ InRange s.cfg v) ∧ (∃ v, Gives s (.construct a) false v ∧ InRange s.cfg v)) ∧
  (∀ (s : State) (i : Instr), Inv s → s.bs = .done → i.wellFormed s.cfg = true →
    ∃ r, exec i s = .next (answered r s))

/-- 43_arith_laws.md R175: the additive group laws, in every phase in which commands execute and every legal
configuration, valid or not. -/
def Obligations.AdditiveGroupLaws : Prop :=
  ∀ (s : State) (a b c : Elem), Ready s → InRange s.cfg a → InRange s.cfg b → InRange s.cfg c →
    Gives s (.add a a) false 0 ∧ Gives s (.add a 0) false a ∧ Gives s (.neg a) false a ∧
    (∃ x y z : Elem, Gives s (.add a b) false x ∧ Gives s (.add b a) false x ∧ Gives s (.sub a b) false x ∧
      Gives s (.add b c) false y ∧ Gives s (.add x c) false z ∧ Gives s (.add a y) false z)

/-- 43_arith_laws.md R176: the multiplicative group laws. -/
def Obligations.MultiplicativeGroupLaws : Prop :=
  ∀ (s : State) (a b c : Elem), Inv s → s.bs = .done → InRange s.cfg a → InRange s.cfg b → InRange s.cfg c →
    (∃ x y z : Elem, Gives s (.mul a b) false x ∧ Gives s (.mul b a) false x ∧ Gives s (.mul b c) false y ∧
      Gives s (.mul x c) false z ∧ Gives s (.mul a y) false z) ∧
    Gives s (.mul a 1) false a ∧
    (a ≠ 0 → ∃ v : Elem, InRange s.cfg v ∧ Gives s (.inv a) false v ∧ Gives s (.mul a v) false 1 ∧
      ∀ u, InRange s.cfg u → Gives s (.mul a u) false 1 → u = v)

/-- 43_arith_laws.md R180: distributivity, zero operands included. -/
def Obligations.MulDistributesOverAdd : Prop :=
  ∀ (s : State) (a b c : Elem), Inv s → s.bs = .done → InRange s.cfg a → InRange s.cfg b → InRange s.cfg c →
    ∃ d x y z : Elem, Gives s (.add b c) false d ∧ Gives s (.mul a d) false z ∧ Gives s (.mul a b) false x ∧
      Gives s (.mul a c) false y ∧ Gives s (.add x y) false z

/-- 60_exceptions.md R203: dz is 1 in a response exactly when CODE = OK and the command was DIV with b = 0 or INV with
a = 0, and the RESULT is then 0. -/
def Obligations.DzMarksExactlyTheZeroDivisors : Prop :=
  ∀ (s t : State) (w : CmdWord), Inv s → execWord w s = .next t → t.emitted = t.rsp :: s.emitted →
    (t.rsp.getLsbD 12 = true ↔
      t.rsp.extractLsb' 13 3 = 0 ∧ ((∃ a, decode w = .ok (.div a 0)) ∨ decode w = .ok (.inv 0))) ∧
    (t.rsp.getLsbD 12 = true → t.rsp.extractLsb' 0 12 = 0)

/-- 20_memory.md R61 (b): in B_DONE the response to a command depends on the configuration and the command alone, never on
the history. -/
def Obligations.AnswersDependOnTheConfigurationAlone : Prop :=
  ∀ (s t : State) (i : Instr) (r : RspWord), Inv s → Inv t → s.bs = .done → t.bs = .done → s.cfg = t.cfg →
    (exec i s = .next (answered r s) ↔ exec i t = .next (answered r t))
end

