-- ==== Sys2Proof/Laws/State.lean ====
section
/-! SUPPORT. One lemma for each field of State under each named update, true by rfl: no later proof unfolds a record
update. -/

namespace Sys2Proof.Machine

@[simp] theorem respond_cfg (code : Code) (dz : Bool) (r : Elem) (s : State) : (respond code dz r s).cfg = s.cfg := rfl
@[simp] theorem respond_exp (code : Code) (dz : Bool) (r : Elem) (s : State) : (respond code dz r s).exp = s.exp := rfl
@[simp] theorem respond_log (code : Code) (dz : Bool) (r : Elem) (s : State) : (respond code dz r s).log = s.log := rfl
@[simp] theorem respond_mul (code : Code) (dz : Bool) (r : Elem) (s : State) : (respond code dz r s).mul = s.mul := rfl
@[simp] theorem respond_div (code : Code) (dz : Bool) (r : Elem) (s : State) : (respond code dz r s).div = s.div := rfl
@[simp] theorem respond_initFlag (code : Code) (dz : Bool) (r : Elem) (s : State) : (respond code dz r s).initFlag = s.initFlag := rfl
@[simp] theorem respond_bs (code : Code) (dz : Bool) (r : Elem) (s : State) : (respond code dz r s).bs = s.bs := rfl
@[simp] theorem respond_i (code : Code) (dz : Bool) (r : Elem) (s : State) : (respond code dz r s).i = s.i := rfl
@[simp] theorem respond_a (code : Code) (dz : Bool) (r : Elem) (s : State) : (respond code dz r s).a = s.a := rfl
@[simp] theorem respond_b (code : Code) (dz : Bool) (r : Elem) (s : State) : (respond code dz r s).b = s.b := rfl
@[simp] theorem respond_ordOk (code : Code) (dz : Bool) (r : Elem) (s : State) : (respond code dz r s).ordOk = s.ordOk := rfl
@[simp] theorem respond_rsp (code : Code) (dz : Bool) (r : Elem) (s : State) : (respond code dz r s).rsp = rspWord code dz r := rfl
@[simp] theorem respond_cmds (code : Code) (dz : Bool) (r : Elem) (s : State) : (respond code dz r s).cmds = s.cmds.tail := rfl
@[simp] theorem respond_rstIn (code : Code) (dz : Bool) (r : Elem) (s : State) : (respond code dz r s).rstIn = s.rstIn := rfl
@[simp] theorem respond_emitted (code : Code) (dz : Bool) (r : Elem) (s : State) : (respond code dz r s).emitted = rspWord code dz r :: s.emitted := rfl

@[simp] theorem answered_cfg (r : RspWord) (s : State) : (answered r s).cfg = s.cfg := rfl
@[simp] theorem answered_exp (r : RspWord) (s : State) : (answered r s).exp = s.exp := rfl
@[simp] theorem answered_log (r : RspWord) (s : State) : (answered r s).log = s.log := rfl
@[simp] theorem answered_mul (r : RspWord) (s : State) : (answered r s).mul = s.mul := rfl
@[simp] theorem answered_div (r : RspWord) (s : State) : (answered r s).div = s.div := rfl
@[simp] theorem answered_initFlag (r : RspWord) (s : State) : (answered r s).initFlag = s.initFlag := rfl
@[simp] theorem answered_bs (r : RspWord) (s : State) : (answered r s).bs = s.bs := rfl
@[simp] theorem answered_i (r : RspWord) (s : State) : (answered r s).i = s.i := rfl
@[simp] theorem answered_a (r : RspWord) (s : State) : (answered r s).a = s.a := rfl
@[simp] theorem answered_b (r : RspWord) (s : State) : (answered r s).b = s.b := rfl
@[simp] theorem answered_ordOk (r : RspWord) (s : State) : (answered r s).ordOk = s.ordOk := rfl
@[simp] theorem answered_rsp (r : RspWord) (s : State) : (answered r s).rsp = r := rfl
@[simp] theorem answered_cmds (r : RspWord) (s : State) : (answered r s).cmds = s.cmds.tail := rfl
@[simp] theorem answered_rstIn (r : RspWord) (s : State) : (answered r s).rstIn = s.rstIn := rfl
@[simp] theorem answered_emitted (r : RspWord) (s : State) : (answered r s).emitted = r :: s.emitted := rfl

@[simp] theorem trigger_cfg (s : State) : (trigger s).cfg = s.cfg := rfl
@[simp] theorem trigger_exp (s : State) : (trigger s).exp = s.exp := rfl
@[simp] theorem trigger_log (s : State) : (trigger s).log = s.log := rfl
@[simp] theorem trigger_mul (s : State) : (trigger s).mul = s.mul := rfl
@[simp] theorem trigger_div (s : State) : (trigger s).div = s.div := rfl
@[simp] theorem trigger_initFlag (s : State) : (trigger s).initFlag = true := rfl
@[simp] theorem trigger_bs (s : State) : (trigger s).bs = .exp0 := rfl
@[simp] theorem trigger_i (s : State) : (trigger s).i = s.i := rfl
@[simp] theorem trigger_a (s : State) : (trigger s).a = s.a := rfl
@[simp] theorem trigger_b (s : State) : (trigger s).b = s.b := rfl
@[simp] theorem trigger_ordOk (s : State) : (trigger s).ordOk = true := rfl
@[simp] theorem trigger_rsp (s : State) : (trigger s).rsp = s.rsp := rfl
@[simp] theorem trigger_cmds (s : State) : (trigger s).cmds = s.cmds := rfl
@[simp] theorem trigger_rstIn (s : State) : (trigger s).rstIn = s.rstIn := rfl
@[simp] theorem trigger_emitted (s : State) : (trigger s).emitted = s.emitted := rfl

@[simp] theorem tick_cfg (s : State) : (tick s).cfg = s.cfg := rfl
@[simp] theorem tick_exp (s : State) : (tick s).exp = s.exp := rfl
@[simp] theorem tick_log (s : State) : (tick s).log = s.log := rfl
@[simp] theorem tick_mul (s : State) : (tick s).mul = s.mul := rfl
@[simp] theorem tick_div (s : State) : (tick s).div = s.div := rfl
@[simp] theorem tick_initFlag (s : State) : (tick s).initFlag = s.initFlag := rfl
@[simp] theorem tick_bs (s : State) : (tick s).bs = s.bs := rfl
@[simp] theorem tick_i (s : State) : (tick s).i = s.i := rfl
@[simp] theorem tick_a (s : State) : (tick s).a = s.a := rfl
@[simp] theorem tick_b (s : State) : (tick s).b = s.b := rfl
@[simp] theorem tick_ordOk (s : State) : (tick s).ordOk = s.ordOk := rfl
@[simp] theorem tick_rsp (s : State) : (tick s).rsp = s.rsp := rfl
@[simp] theorem tick_cmds (s : State) : (tick s).cmds = s.cmds := rfl
@[simp] theorem tick_emitted (s : State) : (tick s).emitted = s.emitted := rfl

@[simp] theorem applyReset_cfg (s : State) : (applyReset s).cfg = s.cfg := rfl
@[simp] theorem applyReset_exp (s : State) : (applyReset s).exp = [] := rfl
@[simp] theorem applyReset_log (s : State) : (applyReset s).log = [] := rfl
@[simp] theorem applyReset_mul (s : State) : (applyReset s).mul = [] := rfl
@[simp] theorem applyReset_div (s : State) : (applyReset s).div = [] := rfl
@[simp] theorem applyReset_initFlag (s : State) : (applyReset s).initFlag = false := rfl
@[simp] theorem applyReset_bs (s : State) : (applyReset s).bs = .idle := rfl
@[simp] theorem applyReset_i (s : State) : (applyReset s).i = 0 := rfl
@[simp] theorem applyReset_a (s : State) : (applyReset s).a = 0 := rfl
@[simp] theorem applyReset_b (s : State) : (applyReset s).b = 0 := rfl
@[simp] theorem applyReset_ordOk (s : State) : (applyReset s).ordOk = true := rfl
@[simp] theorem applyReset_rsp (s : State) : (applyReset s).rsp = 0 := rfl
@[simp] theorem applyReset_cmds (s : State) : (applyReset s).cmds = s.cmds := rfl
@[simp] theorem applyReset_rstIn (s : State) : (applyReset s).rstIn = s.rstIn.tail := rfl
@[simp] theorem applyReset_emitted (s : State) : (applyReset s).emitted = s.emitted := rfl

@[simp] theorem present_cfg (w : CmdWord) (s : State) : (present w s).cfg = s.cfg := rfl
@[simp] theorem present_exp (w : CmdWord) (s : State) : (present w s).exp = s.exp := rfl
@[simp] theorem present_log (w : CmdWord) (s : State) : (present w s).log = s.log := rfl
@[simp] theorem present_mul (w : CmdWord) (s : State) : (present w s).mul = s.mul := rfl
@[simp] theorem present_div (w : CmdWord) (s : State) : (present w s).div = s.div := rfl
@[simp] theorem present_initFlag (w : CmdWord) (s : State) : (present w s).initFlag = s.initFlag := rfl
@[simp] theorem present_bs (w : CmdWord) (s : State) : (present w s).bs = s.bs := rfl
@[simp] theorem present_i (w : CmdWord) (s : State) : (present w s).i = s.i := rfl
@[simp] theorem present_a (w : CmdWord) (s : State) : (present w s).a = s.a := rfl
@[simp] theorem present_b (w : CmdWord) (s : State) : (present w s).b = s.b := rfl
@[simp] theorem present_ordOk (w : CmdWord) (s : State) : (present w s).ordOk = s.ordOk := rfl
@[simp] theorem present_rsp (w : CmdWord) (s : State) : (present w s).rsp = s.rsp := rfl
@[simp] theorem present_cmds (w : CmdWord) (s : State) : (present w s).cmds = w :: s.cmds := rfl
@[simp] theorem present_emitted (w : CmdWord) (s : State) : (present w s).emitted = s.emitted := rfl

@[simp] theorem setTable_exp_cfg (s : State) (m : Memory) : (s.setTable .exp m).cfg = s.cfg := rfl
@[simp] theorem setTable_exp_exp (s : State) (m : Memory) : (s.setTable .exp m).exp = m := rfl
@[simp] theorem setTable_exp_log (s : State) (m : Memory) : (s.setTable .exp m).log = s.log := rfl
@[simp] theorem setTable_exp_mul (s : State) (m : Memory) : (s.setTable .exp m).mul = s.mul := rfl
@[simp] theorem setTable_exp_div (s : State) (m : Memory) : (s.setTable .exp m).div = s.div := rfl
@[simp] theorem setTable_exp_initFlag (s : State) (m : Memory) : (s.setTable .exp m).initFlag = s.initFlag := rfl
@[simp] theorem setTable_exp_bs (s : State) (m : Memory) : (s.setTable .exp m).bs = s.bs := rfl
@[simp] theorem setTable_exp_i (s : State) (m : Memory) : (s.setTable .exp m).i = s.i := rfl
@[simp] theorem setTable_exp_a (s : State) (m : Memory) : (s.setTable .exp m).a = s.a := rfl
@[simp] theorem setTable_exp_b (s : State) (m : Memory) : (s.setTable .exp m).b = s.b := rfl
@[simp] theorem setTable_exp_ordOk (s : State) (m : Memory) : (s.setTable .exp m).ordOk = s.ordOk := rfl
@[simp] theorem setTable_exp_rsp (s : State) (m : Memory) : (s.setTable .exp m).rsp = s.rsp := rfl
@[simp] theorem setTable_exp_cmds (s : State) (m : Memory) : (s.setTable .exp m).cmds = s.cmds := rfl
@[simp] theorem setTable_exp_rstIn (s : State) (m : Memory) : (s.setTable .exp m).rstIn = s.rstIn := rfl
@[simp] theorem setTable_exp_emitted (s : State) (m : Memory) : (s.setTable .exp m).emitted = s.emitted := rfl

@[simp] theorem setTable_log_cfg (s : State) (m : Memory) : (s.setTable .log m).cfg = s.cfg := rfl
@[simp] theorem setTable_log_exp (s : State) (m : Memory) : (s.setTable .log m).exp = s.exp := rfl
@[simp] theorem setTable_log_log (s : State) (m : Memory) : (s.setTable .log m).log = m := rfl
@[simp] theorem setTable_log_mul (s : State) (m : Memory) : (s.setTable .log m).mul = s.mul := rfl
@[simp] theorem setTable_log_div (s : State) (m : Memory) : (s.setTable .log m).div = s.div := rfl
@[simp] theorem setTable_log_initFlag (s : State) (m : Memory) : (s.setTable .log m).initFlag = s.initFlag := rfl
@[simp] theorem setTable_log_bs (s : State) (m : Memory) : (s.setTable .log m).bs = s.bs := rfl
@[simp] theorem setTable_log_i (s : State) (m : Memory) : (s.setTable .log m).i = s.i := rfl
@[simp] theorem setTable_log_a (s : State) (m : Memory) : (s.setTable .log m).a = s.a := rfl
@[simp] theorem setTable_log_b (s : State) (m : Memory) : (s.setTable .log m).b = s.b := rfl
@[simp] theorem setTable_log_ordOk (s : State) (m : Memory) : (s.setTable .log m).ordOk = s.ordOk := rfl
@[simp] theorem setTable_log_rsp (s : State) (m : Memory) : (s.setTable .log m).rsp = s.rsp := rfl
@[simp] theorem setTable_log_cmds (s : State) (m : Memory) : (s.setTable .log m).cmds = s.cmds := rfl
@[simp] theorem setTable_log_rstIn (s : State) (m : Memory) : (s.setTable .log m).rstIn = s.rstIn := rfl
@[simp] theorem setTable_log_emitted (s : State) (m : Memory) : (s.setTable .log m).emitted = s.emitted := rfl

@[simp] theorem setTable_mul_cfg (s : State) (m : Memory) : (s.setTable .mul m).cfg = s.cfg := rfl
@[simp] theorem setTable_mul_exp (s : State) (m : Memory) : (s.setTable .mul m).exp = s.exp := rfl
@[simp] theorem setTable_mul_log (s : State) (m : Memory) : (s.setTable .mul m).log = s.log := rfl
@[simp] theorem setTable_mul_mul (s : State) (m : Memory) : (s.setTable .mul m).mul = m := rfl
@[simp] theorem setTable_mul_div (s : State) (m : Memory) : (s.setTable .mul m).div = s.div := rfl
@[simp] theorem setTable_mul_initFlag (s : State) (m : Memory) : (s.setTable .mul m).initFlag = s.initFlag := rfl
@[simp] theorem setTable_mul_bs (s : State) (m : Memory) : (s.setTable .mul m).bs = s.bs := rfl
@[simp] theorem setTable_mul_i (s : State) (m : Memory) : (s.setTable .mul m).i = s.i := rfl
@[simp] theorem setTable_mul_a (s : State) (m : Memory) : (s.setTable .mul m).a = s.a := rfl
@[simp] theorem setTable_mul_b (s : State) (m : Memory) : (s.setTable .mul m).b = s.b := rfl
@[simp] theorem setTable_mul_ordOk (s : State) (m : Memory) : (s.setTable .mul m).ordOk = s.ordOk := rfl
@[simp] theorem setTable_mul_rsp (s : State) (m : Memory) : (s.setTable .mul m).rsp = s.rsp := rfl
@[simp] theorem setTable_mul_cmds (s : State) (m : Memory) : (s.setTable .mul m).cmds = s.cmds := rfl
@[simp] theorem setTable_mul_rstIn (s : State) (m : Memory) : (s.setTable .mul m).rstIn = s.rstIn := rfl
@[simp] theorem setTable_mul_emitted (s : State) (m : Memory) : (s.setTable .mul m).emitted = s.emitted := rfl

@[simp] theorem setTable_div_cfg (s : State) (m : Memory) : (s.setTable .div m).cfg = s.cfg := rfl
@[simp] theorem setTable_div_exp (s : State) (m : Memory) : (s.setTable .div m).exp = s.exp := rfl
@[simp] theorem setTable_div_log (s : State) (m : Memory) : (s.setTable .div m).log = s.log := rfl
@[simp] theorem setTable_div_mul (s : State) (m : Memory) : (s.setTable .div m).mul = s.mul := rfl
@[simp] theorem setTable_div_div (s : State) (m : Memory) : (s.setTable .div m).div = m := rfl
@[simp] theorem setTable_div_initFlag (s : State) (m : Memory) : (s.setTable .div m).initFlag = s.initFlag := rfl
@[simp] theorem setTable_div_bs (s : State) (m : Memory) : (s.setTable .div m).bs = s.bs := rfl
@[simp] theorem setTable_div_i (s : State) (m : Memory) : (s.setTable .div m).i = s.i := rfl
@[simp] theorem setTable_div_a (s : State) (m : Memory) : (s.setTable .div m).a = s.a := rfl
@[simp] theorem setTable_div_b (s : State) (m : Memory) : (s.setTable .div m).b = s.b := rfl
@[simp] theorem setTable_div_ordOk (s : State) (m : Memory) : (s.setTable .div m).ordOk = s.ordOk := rfl
@[simp] theorem setTable_div_rsp (s : State) (m : Memory) : (s.setTable .div m).rsp = s.rsp := rfl
@[simp] theorem setTable_div_cmds (s : State) (m : Memory) : (s.setTable .div m).cmds = s.cmds := rfl
@[simp] theorem setTable_div_rstIn (s : State) (m : Memory) : (s.setTable .div m).rstIn = s.rstIn := rfl
@[simp] theorem setTable_div_emitted (s : State) (m : Memory) : (s.setTable .div m).emitted = s.emitted := rfl

/-- `respond` is `answered` with the response word. -/
theorem respond_eq_answered (code : Code) (dz : Bool) (r : Elem) (s : State) :
    respond code dz r s = answered (rspWord code dz r) s := rfl

@[simp] theorem busy_eq (s : State) : s.busy = s.bs.busy := rfl

end Sys2Proof.Machine
end

