-- ==== Sys2Proof/Laws/Memory.lean ====
section
/-! SUPPORT. The laws of one table: a read after a write, the canonical form, and writing past the last cell. -/

namespace Sys2Proof.Machine

@[simp] theorem Memory.read_nil (k : Nat) : Memory.read [] k = none := rfl

/-- A write puts its value in its own cell and leaves every other cell alone. -/
theorem Memory.read_write (m : Memory) (k k' : Nat) (v : Elem) :
    (m.write k v).read k' = if k' = k then some v else m.read k' := by
  induction m with
  | nil => simp [Memory.write, Memory.read]
  | cons c m ih =>
    obtain ⟨j, u⟩ := c
    simp only [Memory.write]
    split_ifs with h1 h2 h3 h4 <;> simp only [Memory.read]
    · simp [*]
    · simp [*]
    · simp [*]
    · grind
    · rw [ih]; grind
    · rw [ih]; grind

@[simp] theorem Memory.read_write_same (m : Memory) (k : Nat) (v : Elem) : (m.write k v).read k = some v := by
  simp [Memory.read_write]

theorem Memory.read_write_other {m : Memory} {k k' : Nat} (v : Elem) (h : k' ≠ k) :
    (m.write k v).read k' = m.read k' := by
  simp [Memory.read_write, h]

/-- The addresses after a write are the old ones and the written one. -/
theorem Memory.mem_keys_write (m : Memory) (k j : Nat) (v : Elem) :
    j ∈ (m.write k v).map Prod.fst ↔ j = k ∨ j ∈ m.map Prod.fst := by
  induction m with
  | nil => simp [Memory.write]
  | cons c m ih =>
    obtain ⟨i, u⟩ := c
    simp only [Memory.write]
    split_ifs with h1 h2
    · simp
    · subst h2; simp
    · simp only [List.map_cons, List.mem_cons, ih]; tauto

/-- A write keeps the canonical form. -/
theorem Memory.write_wf {m : Memory} (h : m.wf) (k : Nat) (v : Elem) : (m.write k v).wf := by
  induction m with
  | nil => simp [Memory.wf, Memory.write]
  | cons c m ih =>
    obtain ⟨i, u⟩ := c
    simp only [Memory.wf, List.map_cons, List.pairwise_cons] at h
    simp only [Memory.write]
    split_ifs with h1 h2
    · simp only [Memory.wf, List.map_cons, List.pairwise_cons, List.mem_cons]
      refine ⟨?_, h.1, h.2⟩
      rintro j (rfl | hj)
      · exact h1
      · exact h1.trans (h.1 j hj)
    · subst h2; simpa [Memory.wf] using h
    · simp only [Memory.wf, List.map_cons, List.pairwise_cons]
      refine ⟨fun j hj => ?_, ih h.2⟩
      rcases (Memory.mem_keys_write m k j v).1 hj with rfl | hj
      · omega
      · exact h.1 j hj

@[simp] theorem Memory.nil_wf : Memory.wf [] := List.Pairwise.nil

/-- A write past every address appends one cell. -/
theorem Memory.write_past {m : Memory} {k : Nat} (h : ∀ j ∈ m.map Prod.fst, j < k) (v : Elem) :
    m.write k v = m ++ [(k, v)] := by
  induction m with
  | nil => rfl
  | cons c m ih =>
    obtain ⟨i, u⟩ := c
    simp only [List.map_cons, List.mem_cons, forall_eq_or_imp] at h
    simp [Memory.write, ih h.2, show ¬ k < i by omega, show ¬ k = i by omega]

/-- The cell `i` of a table written in address order from 0. -/
theorem Memory.read_range_map (f : Nat → Elem) (k i : Nat) :
    Memory.read ((List.range k).map fun x => (x, f x)) i = if i < k then some (f i) else none := by
  have aux : ∀ (k b : Nat), Memory.read ((List.range' b k).map fun x => (x, f x)) i =
      if b ≤ i ∧ i < b + k then some (f i) else none := by
    intro k
    induction k with
    | zero => intro b; simp
    | succ k ih =>
      intro b
      simp only [List.range'_succ, List.map_cons, Memory.read, ih]
      by_cases hi : i = b
      · simp [hi]
      · simp only [hi, if_false]
        congr 1
        exact propext (by omega)
  simpa [List.range_eq_range'] using aux k 0

end Sys2Proof.Machine
end

