-- ==== Sys2Proof/Laws/Operands.lean ====
section
/-! SUPPORT. Operand ranges, response words and field elements. -/

namespace Sys2Proof.Machine

/-- R82: the bits at and above W are 0 exactly when the value is below Q. -/
theorem operandInRange_eq (c : Config) (x : Elem) : operandInRange c x = decide (x.toNat < c.q) := by
  rw [operandInRange, Config.q, Bool.eq_iff_iff]
  simp only [beq_iff_eq, decide_eq_true_eq, BitVec.toNat_eq, BitVec.toNat_ushiftRight, Nat.shiftRight_eq_div_pow]
  change x.toNat / 2 ^ c.width = 0 ↔ _
  rw [Nat.div_eq_zero_iff]
  have := Nat.two_pow_pos c.width
  omega

/-- The range check of a command is the well-formedness of its operands. -/
theorem all_inRange_eq (c : Config) (i : Instr) : i.operands.all (operandInRange c) = i.wellFormed c := by
  simp only [Instr.wellFormed, ← operandInRange_eq]

/-- The value of two words side by side, the first in the high bits (R12). -/
theorem append_toNat {m n : Nat} (x : BitVec m) (y : BitVec n) : (x ++ y).toNat = x.toNat * 2 ^ n + y.toNat := by
  rw [BitVec.toNat_append, ← Nat.shiftLeft_add_eq_or_of_lt y.isLt, Nat.shiftLeft_eq]

/-- R87: the word of an OK answer. -/
theorem rspWord_ok (dz : Bool) (v : Elem) : rspWord .ok dz v = okWord dz v := by
  apply BitVec.eq_of_toNat_eq
  have hv := v.isLt
  simp only [rspWord, okWord, append_toNat]
  rcases dz with _ | _ <;> simp [Code.bits] <;> omega

theorem rspWord_illegal : rspWord .illegal false 0 = 0x2000 := by decide
theorem rspWord_range : rspWord .range false 0 = 0x4000 := by decide
theorem rspWord_badcfg : rspWord .badcfg false 0 = 0x6000 := by decide
theorem rspWord_undef : rspWord .undef false 0 = 0x8000 := by decide

/-- R7: the low W bits of a value are below Q. -/
theorem lowBits_lt (w : Nat) (v : BitVec 13) : (lowBits w v).toNat < 2 ^ w := by
  have h := Nat.mod_lt v.toNat (Nat.two_pow_pos w)
  simp only [lowBits, BitVec.toNat_ofNat]
  exact lt_of_le_of_lt (Nat.mod_le _ _) h

/-- R103: a power of x is below Q. -/
theorem xtime_lt (w : Nat) (p : Poly) (u : Elem) : (xtime w p u).toNat < 2 ^ w := by
  simp only [xtime]
  split <;> exact lowBits_lt _ _

end Sys2Proof.Machine
end

