-- ==== Sys2Proof/Laws/Ops.lean ====
section
/-! SUPPORT. What each shared operation can do, said once: cells, the prologue of a command, and a step. -/

namespace Sys2Proof.Machine

/-- A read answers exactly the content of a written cell inside the table. -/
theorem readCell_eq_ok {s : State} {sp : Space} {k : Nat} {v : Elem} :
    s.readCell sp k = .ok v ↔ k < cells s.cfg sp ∧ s.cell sp k = some v := by
  unfold State.readCell
  split_ifs with h
  · cases hc : s.cell sp k <;> simp [h]
  · simp [h]

/-- A write inside the table changes one cell of one table. -/
theorem writeCell_eq_ok {s t : State} {sp : Space} {k : Nat} {v : Elem} :
    s.writeCell sp k v = .ok t ↔ k < cells s.cfg sp ∧ t = s.setTable sp ((s.table sp).write k v) := by
  unfold State.writeCell
  split_ifs with h
  · simp [h, eq_comm]
  · simp [h]

@[simp] theorem finish_ok (s : State) : finish (.ok s) = .next s := rfl
@[simp] theorem finish_error (f : Fault) : finish (.error f) = .fault f := rfl

/-- A computation that answers a next state has not faulted. -/
theorem finish_eq_next {e : Except Fault State} {t : State} : finish e = .next t ↔ e = .ok t := by
  cases e <;> simp [finish]

/-! ## The prologue -/

/-- R130: in a ready state, with every operand in range, a command runs. -/
theorem command_runs {s : State} {ops : List Elem} (run : State → Result) (hr : Ready s)
    (ho : ops.all (operandInRange s.cfg) = true) : command ops run s = run s := by
  simp only [command, hr.1, hr.2, ho, if_true, if_false, Bool.false_eq_true]

/-- R82: in a ready state an operand out of range is answered RANGE. -/
theorem command_range {s : State} {ops : List Elem} (run : State → Result) (hr : Ready s)
    (ho : ops.all (operandInRange s.cfg) = false) : command ops run s = .next (answered 0x4000 s) := by
  simp only [command, hr.1, hr.2, ho, if_true, if_false, Bool.false_eq_true, respond_eq_answered, rspWord_range]

/-- R234: while BUSY the command is held. -/
theorem command_held {s : State} {ops : List Elem} (run : State → Result) (hl : s.cfg.legal = true)
    (hb : s.busy = true) : command ops run s = .next s := by
  simp only [command, hl, hb, if_true]

/-- R5: an illegal configuration is refused. -/
theorem command_refused {s : State} {ops : List Elem} (run : State → Result) (hl : s.cfg.legal = false) :
    command ops run s = .refused .illegalConfiguration := by
  simp [command, hl]

/-- Everything the prologue can do when it answers a next state. -/
theorem command_next {s t : State} {ops : List Elem} {run : State → Result} (h : command ops run s = .next t) :
    s.cfg.legal = true ∧
      ((s.busy = true ∧ t = s) ∨ (s.busy = false ∧ ops.all (operandInRange s.cfg) = false ∧ t = answered 0x4000 s) ∨
        (s.busy = false ∧ ops.all (operandInRange s.cfg) = true ∧ run s = .next t)) := by
  unfold command at h
  split_ifs at h with h1 h2 h3
  · simp_all
  · simp_all
  · simp only [Host.Outcome.next.injEq, respond_eq_answered, rspWord_range] at h
    simp_all

/-- R101: a well-formed TABLE command in B_IDLE takes the TRIGGER step. -/
theorem tableCommand_idle {s : State} {ops : List Elem} (run : State → Result) (hl : s.cfg.legal = true)
    (hb : s.bs = .idle) (ho : ops.all (operandInRange s.cfg) = true) :
    tableCommand ops run s = .next (trigger s) := by
  rw [tableCommand, command_runs _ ⟨hl, by simp [hb, Phase.busy]⟩ ho]
  simp [hb]

/-- R111: a well-formed TABLE command in B_FAILED is answered BADCFG. -/
theorem tableCommand_failed {s : State} {ops : List Elem} (run : State → Result) (hl : s.cfg.legal = true)
    (hb : s.bs = .failed) (ho : ops.all (operandInRange s.cfg) = true) :
    tableCommand ops run s = .next (answered 0x6000 s) := by
  rw [tableCommand, command_runs _ ⟨hl, by simp [hb, Phase.busy]⟩ ho]
  simp only [hb, respond_eq_answered, rspWord_badcfg]

/-- R130: a well-formed TABLE command in B_DONE runs. -/
theorem tableCommand_done {s : State} {ops : List Elem} (run : State → Result) (hl : s.cfg.legal = true)
    (hb : s.bs = .done) (ho : ops.all (operandInRange s.cfg) = true) : tableCommand ops run s = run s := by
  rw [tableCommand, command_runs _ ⟨hl, by simp [hb, Phase.busy]⟩ ho]
  simp [hb]

/-- R130: `respond(OK, 0, result)`. -/
theorem answer_eq (v : Elem) (s : State) : answer v s = .next (answered (okWord false v) s) := by
  simp only [answer, respond_eq_answered, rspWord_ok]

/-- The answer read from a written cell inside its table. -/
theorem answerCell_eq {s : State} {sp : Space} {k : Nat} {v : Elem} (dz : Bool) (hk : k < cells s.cfg sp)
    (hv : s.cell sp k = some v) : answerCell sp k dz s = .next (answered (okWord dz v) s) := by
  simp only [answerCell, readCell_eq_ok.2 ⟨hk, hv⟩, respond_eq_answered, rspWord_ok]

/-! ## A step -/

/-- R10: a step that answers a next state is a reset, a BUILD step, a step on the word at the port, or an idle step. -/
theorem step_next {s t : State} (h : step s = .next t) :
    s.cfg.legal = true ∧
      ((s.rstNow = true ∧ t = applyReset s) ∨
        (s.rstNow = false ∧ s.busy = true ∧ buildStep (tick s) = .next t) ∨
        (s.rstNow = false ∧ s.busy = false ∧ s.port = none ∧ t = tick s) ∨
        (s.rstNow = false ∧ s.busy = false ∧ ∃ w, s.port = some w ∧ execWord w (tick s) = .next t)) := by
  unfold step at h
  split_ifs at h with hl hr
  · simp_all
  · refine ⟨hl, .inr ?_⟩
    have hr' : s.rstNow = false := by simpa using hr
    unfold stepNoReset at h
    have hb : (tick s).busy = s.busy := rfl
    have hp : (tick s).port = s.port := rfl
    rw [hb, hp] at h
    split_ifs at h with hbusy
    · exact .inl ⟨hr', hbusy, h⟩
    · have hbusy' : s.busy = false := by simpa using hbusy
      split at h
      next w hw => exact .inr (.inr ⟨hr', hbusy', w, hw, h⟩)
      next hw =>
        simp only [Host.Outcome.next.injEq] at h
        exact .inr (.inl ⟨hr', hbusy', hw, h.symm⟩)

/-- The invariant says nothing of RSP and of the environment's side of the ports. -/
theorem Inv.env {s : State} (h : Inv s) (r : RspWord) (cmds : List CmdWord) (rst : List Nat) (out : List RspWord) :
    Inv { s with rsp := r, cmds := cmds, rstIn := rst, emitted := out } :=
  ⟨h.legal, h.initFlag, h.index_i, h.index_a, h.index_b, h.expgen_from_one, h.exp, h.log, h.mul, h.div, h.ordOk,
    h.valid_if_filling, h.invalid_if_failed⟩

/-- An EXEC step keeps the invariant. -/
theorem Inv.answered {s : State} (h : Inv s) (r : RspWord) : Inv (answered r s) :=
  h.env r s.cmds.tail s.rstIn (r :: s.emitted)

end Sys2Proof.Machine
end

