-- ==== Sys2Proof/Laws/PerInstr.lean ====
section
/-! SUPPORT. A fact about every command as syntax, made per constructor: OPC, RSV, A and B of its word are the fields of
format C (30_encoding.md R81, R84). -/

namespace Sys2Proof.Laws.WordFields

/-- The opcode column of R83. -/
def opcode : Instr → BitVec 4
  | .construct _ => 0x1
  | .add _ _ => 0x2
  | .sub _ _ => 0x3
  | .mul _ _ => 0x4
  | .div _ _ => 0x5
  | .neg _ => 0x6
  | .inv _ => 0x7
  | .exp _ => 0x8
  | .log _ => 0x9
  | .width => 0xA
  | .maxval => 0xB
  | .status => 0xC

/-- The word of `i` has its opcode in OPC, 0 in RSV, and its operands in A and B in order, absent ones 0. -/
def Statement (i : Instr) : Prop :=
  fieldOpc (encode i) = opcode i ∧ fieldRsv (encode i) = 0 ∧ fieldA (encode i) = i.operands.getD 0 0 ∧
    fieldB (encode i) = i.operands.getD 1 0

/-- The four fields of a word in format C. -/
theorem formatC_fields (o : BitVec 4) (a b : Elem) :
    fieldOpc (formatC o a b) = o ∧ fieldRsv (formatC o a b) = 0 ∧ fieldA (formatC o a b) = a ∧
      fieldB (formatC o a b) = b := by
  refine ⟨?_, ?_, ?_, ?_⟩ <;> ext k hk <;>
    simp [fieldOpc, fieldRsv, fieldA, fieldB, formatC] <;> grind

theorem construct (v : Elem) : Statement (.construct v) := formatC_fields 0x1 v 0
theorem add (a b : Elem) : Statement (.add a b) := formatC_fields 0x2 a b
theorem sub (a b : Elem) : Statement (.sub a b) := formatC_fields 0x3 a b
theorem mul (a b : Elem) : Statement (.mul a b) := formatC_fields 0x4 a b
theorem div (a b : Elem) : Statement (.div a b) := formatC_fields 0x5 a b
theorem neg (a : Elem) : Statement (.neg a) := formatC_fields 0x6 a 0
theorem inv (a : Elem) : Statement (.inv a) := formatC_fields 0x7 a 0
theorem exp (i : Elem) : Statement (.exp i) := formatC_fields 0x8 i 0
theorem log (e : Elem) : Statement (.log e) := formatC_fields 0x9 e 0
theorem width : Statement .width := formatC_fields 0xA 0 0
theorem maxval : Statement .maxval := formatC_fields 0xB 0 0
theorem status : Statement .status := formatC_fields 0xC 0 0

end Sys2Proof.Laws.WordFields
end

