-- ==== Sys2Proof/Tests/Slice0.lean ====
section
/-! SUPPORT. Tests of the model against values of the spec (95_test_vectors.md, the worked examples of the rules), the
well-formedness checks on ill-formed terms, and for every statement with hypotheses a state and operands that meet them. -/

namespace Sys2Proof.Tests

open Sys2Proof Sys2Proof.Machine

/-! ## Helpers: small states -/

/-- The reset state of a configuration with the words `cmds` presented. -/
def idleAt (w : Nat) (p : Poly) (cmds : List CmdWord) : State := { State.resetOf ⟨w, p⟩ with cmds := cmds }

/-- The state after a whole build, with the words `cmds` presented. -/
def builtAt (w : Nat) (p : Poly) (cmds : List CmdWord) : State :=
  { buildWhole (trigger (idleAt w p [])) with cmds := cmds }

/-- A state in the phase `ph` of a build of GF(4), with the index `i`. -/
def gf4At (ph : Phase) (i : Elem) : State := { trigger (idleAt 2 0x7 [0x40002003]) with bs := ph, i := i }

/-- The response a step leaves in RSP. -/
def rspOf : Result → Option RspWord
  | .next t => some t.rsp
  | _ => none

/-- The phase a step ends in. -/
def phaseOf : Result → Option Phase
  | .next t => some t.bs
  | _ => none

/-- How many words a step leaves at the port. -/
def waiting : Result → Option Nat
  | .next t => some t.cmds.length
  | _ => none

/-! ## Decoding: words written out field by field from R81 and R83 (OPC, RSV, A, B) -/

theorem test_decode_construct : decode 0b0001_0000_000000000101_000000000000 = .ok (.construct 5) := by decide
theorem test_decode_add : decode 0b0010_0000_000000000101_000000001001 = .ok (.add 5 9) := by decide
theorem test_decode_sub : decode 0b0011_0000_000000001001_000000000101 = .ok (.sub 9 5) := by decide
theorem test_decode_mul : decode 0b0100_0000_000100100011_010001010110 = .ok (.mul 0x123 0x456) := by decide
theorem test_decode_div : decode 0b0101_0000_000000001011_000000001001 = .ok (.div 11 9) := by decide
theorem test_decode_neg : decode 0b0110_0000_000000001101_000000000000 = .ok (.neg 13) := by decide
theorem test_decode_inv : decode 0b0111_0000_111111111111_000000000000 = .ok (.inv 4095) := by decide
theorem test_decode_exp : decode 0b1000_0000_000011111111_000000000000 = .ok (.exp 255) := by decide
theorem test_decode_log : decode 0b1001_0000_000000001001_000000000000 = .ok (.log 9) := by decide
theorem test_decode_width : decode 0b1010_0000_000000000000_000000000000 = .ok .width := by decide
theorem test_decode_maxval : decode 0b1011_0000_000000000000_000000000000 = .ok .maxval := by decide
theorem test_decode_status : decode 0b1100_0000_000000000000_000000000000 = .ok .status := by decide

/-- X1, X2, X3: reserved opcodes. -/
theorem test_decode_reserved_opcodes :
    decode 0x00000000 = .error .reservedOpcode ∧ decode 0xD0000000 = .error .reservedOpcode ∧
    decode 0xE0000000 = .error .reservedOpcode ∧ decode 0xF0000000 = .error .reservedOpcode := by decide

/-- X2, X4, X5: RSV is not 0. -/
theorem test_decode_reserved_field :
    decode 0x41005009 = .error .reservedField ∧ decode 0x2F005009 = .error .reservedField ∧
    decode 0xFFFFFFFF = .error .reservedField := by decide

/-- X6, X7, X8: a field the command does not use is not 0. -/
theorem test_decode_stray_operand :
    decode 0x60003001 = .error .strayOperand ∧ decode 0x10005001 = .error .strayOperand ∧
    decode 0x70007FFF = .error .strayOperand ∧ decode 0x80001800 = .error .strayOperand ∧
    decode 0x90009001 = .error .strayOperand ∧ decode 0xA0000001 = .error .strayOperand ∧
    decode 0xA0001000 = .error .strayOperand ∧ decode 0xB0000001 = .error .strayOperand ∧
    decode 0xC0001000 = .error .strayOperand ∧ decode 0xC0000FFF = .error .strayOperand := by decide

/-- R93: the worked encodings. -/
theorem test_encode_worked_words :
    encode (.construct 5) = 0x10005000 ∧ encode (.add 5 9) = 0x20005009 ∧ encode (.mul 5 9) = 0x40005009 ∧
    encode (.div 7 0) = 0x50007000 ∧ encode (.inv 7) = 0x70007000 ∧ encode (.exp 1) = 0x80001000 ∧
    encode (.log 0) = 0x90000000 ∧ encode .width = 0xA0000000 ∧ encode .maxval = 0xB0000000 ∧
    encode .status = 0xC0000000 := by decide

theorem test_decodeTableWord : decodeTableWord 32 0x40005009 = some (.mul 5 9) ∧ decodeTableWord 32 0 = none := by decide

/-! ## Well-formedness: each check refuses an ill-formed term -/

/-- G1, G2: an operand at or above Q, in A and in B. -/
theorem test_ill_formed_binary :
    (Instr.add 16 1).wellFormed ⟨4, 0x13⟩ = false ∧ (Instr.add 1 16).wellFormed ⟨4, 0x13⟩ = false ∧
    (Instr.add 15 15).wellFormed ⟨4, 0x13⟩ = true := by decide

/-- G5, G10: a unary operand out of range; with W = 12 none is. -/
theorem test_ill_formed_unary :
    (Instr.exp 16).wellFormed ⟨4, 0x13⟩ = false ∧ (Instr.construct 2).wellFormed ⟨1, 0x3⟩ = false ∧
    (Instr.mul 4095 4095).wellFormed ⟨12, 0x1053⟩ = true := by decide

/-- R5: widths 0 and 13, a P_IN of too low and of too high a degree are not legal; 0 and 0x10 are legal for W = 4. -/
theorem test_illegal_configurations :
    Config.legal ⟨0, 0x1⟩ = false ∧ Config.legal ⟨13, 0⟩ = false ∧ Config.legal ⟨4, 0x9⟩ = false ∧
    Config.legal ⟨4, 0x33⟩ = false ∧ Config.legal ⟨4, 0⟩ = true ∧ Config.legal ⟨4, 0x10⟩ = true := by decide

/-! ## Commands: one step each, from the vectors -/

/-- F1, F32: `ADD 5, 9` and, for W = 1, `ADD 1, 1`. -/
theorem test_add :
    rspOf (step (idleAt 4 0x13 [0x20005009])) = some 0x000C ∧ rspOf (step (idleAt 1 0x3 [0x20001001])) = some 0x0000 := by
  decide

/-- F7: `SUB 9, 5` has no borrow. -/
theorem test_sub : rspOf (step (idleAt 4 0x13 [0x30009005])) = some 0x000C := by decide

/-- F8: `NEG 13`. -/
theorem test_neg : rspOf (step (idleAt 4 0x13 [0x6000D000])) = some 0x000D := by decide

/-- F38: `MUL 2, 3` in GF(4). -/
theorem test_mul : rspOf (step (builtAt 2 0x7 [0x40002003])) = some 0x0001 := by decide

/-- F39, F35: `DIV 2, 3` in GF(4) (the operands are not swapped), and `DIV 1, 0` for W = 1. -/
theorem test_div :
    rspOf (step (builtAt 2 0x7 [0x50002003])) = some 0x0003 ∧ rspOf (step (builtAt 1 0x3 [0x50001000])) = some 0x1000 := by
  decide

/-- F40 and R185: `INV 2` in GF(4), and `INV 0`. -/
theorem test_inv :
    rspOf (step (builtAt 2 0x7 [0x70002000])) = some 0x0003 ∧ rspOf (step (builtAt 2 0x7 [0x70000000])) = some 0x1000 := by
  decide

/-- R150: `CONSTRUCT 1` is answered once the tables are there, and triggers the build before. -/
theorem test_construct :
    rspOf (step (builtAt 2 0x7 [0x10001000])) = some 0x0001 ∧ phaseOf (step (idleAt 2 0x7 [0x10001000])) = some .exp0 ∧
    waiting (step (idleAt 2 0x7 [0x10001000])) = some 1 := by decide

/-- A27, R151: `EXP 2` and `EXP 3` (that is `EXP N`) in GF(4). -/
theorem test_exp :
    rspOf (step (builtAt 2 0x7 [0x80002000])) = some 0x0003 ∧ rspOf (step (builtAt 2 0x7 [0x80003000])) = some 0x0001 := by
  decide

/-- A27, A25, R105: `LOG 3`, `LOG 0` and `LOG 1` in GF(4). -/
theorem test_log :
    rspOf (step (builtAt 2 0x7 [0x90003000])) = some 0x0002 ∧ rspOf (step (builtAt 2 0x7 [0x90000000])) = some 0x8000 ∧
    rspOf (step (builtAt 2 0x7 [0x90001000])) = some 0x0000 := by decide

/-- A19: `WIDTH` for W = 12. -/
theorem test_width : rspOf (step (idleAt 12 0x1053 [0xA0000000])) = some 0x000C := by decide

/-- A19: `MAXVAL` for W = 12. -/
theorem test_maxval : rspOf (step (idleAt 12 0x1053 [0xB0000000])) = some 0x0FFF := by decide

/-- A21, A22, A23: `STATUS` in B_IDLE, B_DONE and B_FAILED. -/
theorem test_status :
    rspOf (step (idleAt 2 0x7 [0xC0000000])) = some 0x0000 ∧ rspOf (step (builtAt 2 0x7 [0xC0000000])) = some 0x0003 ∧
    rspOf (step (builtAt 2 0x5 [0xC0000000])) = some 0x0005 := by decide

/-- X10, X12 to X16 with W = 2, P = 0x5 in B_FAILED: the priority of the codes, and ADD still works. -/
theorem test_priority :
    rspOf (step (builtAt 2 0x5 [0x60010001])) = some 0x2000 ∧ rspOf (step (builtAt 2 0x5 [0x40010001])) = some 0x4000 ∧
    rspOf (step (builtAt 2 0x5 [0x90000000])) = some 0x6000 ∧ rspOf (step (builtAt 2 0x5 [0x20001002])) = some 0x0003 := by
  decide

/-- B6, B11, B13: `LOG 0` triggers; an out-of-range and an illegal word do not. -/
theorem test_trigger :
    phaseOf (step (idleAt 4 0x13 [0x90000000])) = some .exp0 ∧ phaseOf (step (idleAt 4 0x13 [0x40010001])) = some .idle ∧
    phaseOf (step (idleAt 4 0x13 [0x41005009])) = some .idle := by decide

/-- The instruction the interface presents is the first to run after reset. -/
theorem test_withFetchWord :
    rspOf (step (State.reset.withFetchWord 32 0x20005009)) = some 0x000C ∧
    phaseOf (step (State.reset.withFetchWord 32 0x40005009)) = some .exp0 := by decide

/-! ## Builder -/

/-- Section 3.1, I = 4: x·8 is 3 for P = 0x13; section 3.2: it is 15 for P = 0x1F. -/
theorem test_xtime : xtime 4 0x13 8 = 3 ∧ xtime 4 0x1F 8 = 15 ∧ xtime 12 0x1053 0x800 = 0x053 := by decide

/-- Section 2.2: the tables of GF(4). -/
theorem test_build_gf4 :
    (builtAt 2 0x7 []).exp = [(0, 1), (1, 2), (2, 3), (3, 1)] ∧ (builtAt 2 0x7 []).log = [(1, 0), (2, 1), (3, 2)] ∧
    (builtAt 2 0x7 []).mul.map Prod.snd = [0, 0, 0, 0, 0, 1, 2, 3, 0, 2, 3, 1, 0, 3, 1, 2] ∧
    (builtAt 2 0x7 []).div.map Prod.snd = [0, 0, 0, 0, 0, 1, 3, 2, 0, 2, 1, 3, 0, 3, 2, 1] := by decide

/-- Section 3.3: with bit 0 of P clear LOG[0] is written and the build fails. -/
theorem test_build_failed :
    (builtAt 4 0x10 []).bs = .failed ∧ (builtAt 4 0x10 []).log = [(0, 15), (1, 0), (2, 1), (4, 2), (8, 3)] := by decide

/-- R117: the last step of the loop for GF(4), x·3 = 1, LOG[1] <- 3, ORD_OK stays. -/
theorem test_expgen_last :
    (match buildStep { gf4At .expgen 3 with exp := [(0, 1), (1, 2), (2, 3)], log := [(2, 1), (3, 2)] } with
      | .next t => decide (t.exp = [(0, 1), (1, 2), (2, 3), (3, 1)] ∧ t.log = [(1, 3), (2, 1), (3, 2)] ∧
          t.ordOk = true ∧ t.bs = .logfix)
      | _ => false) = true := by decide

/-- R108, the example (A, B) = (2, 3) of GF(4): m = 1, d = 3, then (3, 0). -/
theorem test_fill_pair :
    (match buildStep { builtAt 2 0x7 [] with bs := .fill, a := 2, b := 3, mul := [], div := [] } with
      | .next t => decide (t.mul = [(11, 1)] ∧ t.div = [(11, 3)] ∧ t.a = 3 ∧ t.b = 0 ∧ t.bs = .fill)
      | _ => false) = true := by decide

/-- R230: reset during a build; the word at the port stays. -/
theorem test_reset_during_build :
    (match step { gf4At .check 3 with rstIn := [0, 24] } with
      | .next t => decide (t = { idleAt 2 0x7 [0x40002003] with rstIn := [24] })
      | _ => false) = true := by decide

/-- R25: a read of NOVALUE is a fault of the model; R59: so is an address outside the table. -/
theorem test_faults :
    (idleAt 2 0x7 []).readCell .exp 0 = .error (.noValue .exp) ∧
    (idleAt 2 0x7 []).readCell .exp 4 = .error (.noSuchCell .exp) := by decide

/-! ## Witnesses: states and operands that meet the hypotheses of the statements -/

/-- The invariant at a state of every kind, with a legal configuration. -/
theorem inv_idle (cmds : List CmdWord) : Inv (idleAt 2 0x7 cmds) := by
  have h : Inv (idleAt 2 0x7 []) := by constructor <;> decide
  exact h.env 0 cmds [] []

theorem inv_done (cmds : List CmdWord) : Inv (builtAt 2 0x7 cmds) := by
  have h : Inv (builtAt 2 0x7 []) := by constructor <;> decide
  exact h.env _ cmds _ _

/-- The smallest field, W = 1. -/
theorem inv_done_gf2 (cmds : List CmdWord) : Inv (builtAt 1 0x3 cmds) := by
  have h : Inv (builtAt 1 0x3 []) := by constructor <;> decide
  exact h.env _ cmds _ _

theorem inv_failed (cmds : List CmdWord) : Inv (builtAt 2 0x5 cmds) := by
  have h : Inv (builtAt 2 0x5 []) := by constructor <;> decide
  exact h.env _ cmds _ _

theorem inv_exp0 : Inv (gf4At .exp0 0) := by constructor <;> decide

/-- Before the build of a configuration that is not valid, P = 0x5. -/
theorem inv_exp0_invalid : Inv (trigger (idleAt 2 0x5 [])) := by constructor <;> decide

/-- GF(4) in the middle of the loop, I = 2. -/
def gf4Loop : State := { gf4At .expgen 2 with exp := [(0, 1), (1, 2)], log := [(2, 1)] }

theorem inv_expgen : Inv gf4Loop := by constructor <;> decide

/-- GF(4) after the loop. -/
def gf4Fix : State :=
  { gf4At .logfix 3 with exp := [(0, 1), (1, 2), (2, 3), (3, 1)], log := [(1, 3), (2, 1), (3, 2)] }

theorem inv_logfix : Inv gf4Fix := by constructor <;> decide

/-- GF(4) in the fill at the pair (a, b), the pairs before it written. -/
def gf4Fill (a b : Elem) : State :=
  { builtAt 2 0x7 [0x40002003] with
    bs := .fill
    a := a
    b := b
    mul := (builtAt 2 0x7 []).mul.take (pairAddr ⟨2, 0x7⟩ a b)
    div := (builtAt 2 0x7 []).div.take (pairAddr ⟨2, 0x7⟩ a b) }

theorem inv_fill : Inv (gf4Fill 2 3) := by constructor <;> decide

theorem inv_fill_last : Inv (gf4Fill 3 3) := by constructor <;> decide

/-! ### Encoding and steps -/

theorem witness_EncodeUndoesDecode : decode 0x40FFFFFF = .ok (.mul 4095 4095) ∧ decode 0xC0000000 = .ok .status := by decide

theorem witness_IllegalExactlyWhenNoRowMatches :
    (opcodeRows[0]? = some (0x10000000, 0xFF000FFF) ∧ matchesRow 0x10FFF000 (0x10000000, 0xFF000FFF) = true) ∧
    (opcodeRows[11]? = some (0xC0000000, 0xFFFFFFFF) ∧ matchesRow 0xC0000000 (0xC0000000, 0xFFFFFFFF) = true) ∧
    (Running (idleAt 12 0 [0xFFFFFFFF]) ∧ (idleAt 12 0 [0xFFFFFFFF]).busy = false ∧
      (idleAt 12 0 [0xFFFFFFFF]).port = some 0xFFFFFFFF ∧ decode 0xFFFFFFFF = .error .reservedField) := by decide

theorem witness_StepRunsTheDecodedCommand :
    Running (builtAt 2 0x7 [0x40002003]) ∧ (builtAt 2 0x7 [0x40002003]).busy = false ∧
    (builtAt 2 0x7 [0x40002003]).port = some 0x40002003 ∧ decode 0x40002003 = .ok (.mul 2 3) := by decide

theorem witness_OneResponsePerConsumedCommand :
    (∃ t, step (idleAt 4 0x13 [0x20005009]) = .next t) ∧ (∃ t, step (idleAt 4 0x13 [0x40005009]) = .next t) ∧
    (∃ t, step { gf4At .check 3 with rstIn := [0] } = .next t) := ⟨⟨_, rfl⟩, ⟨_, rfl⟩, ⟨_, rfl⟩⟩

theorem witness_DecodeOrder :
    (Inv (idleAt 2 0x7 []) ∧ (idleAt 2 0x7 []).busy = false ∧ (idleAt 2 0x7 []).bs = .idle) ∧
    (Inv (builtAt 2 0x5 []) ∧ (builtAt 2 0x5 []).busy = false ∧ (builtAt 2 0x5 []).bs = .failed) ∧
    (Inv (builtAt 2 0x7 []) ∧ (builtAt 2 0x7 []).busy = false ∧ (builtAt 2 0x7 []).bs = .done) ∧
    decode 0 = .error .reservedOpcode ∧
    (decode 0x40004003 = .ok (.mul 4 3) ∧ (Instr.mul 4 3).wellFormed ⟨2, 0x7⟩ = false) ∧
    (decode 0x90000000 = .ok (.log 0) ∧ (Instr.log 0).wellFormed ⟨2, 0x7⟩ = true ∧ (Instr.log 0).needsTables = true) ∧
    (decode 0x20003003 = .ok (.add 3 3) ∧ (Instr.add 3 3).wellFormed ⟨2, 0x7⟩ = true ∧
      (Instr.add 3 3).needsTables = false ∧ Instr.add 3 3 ≠ .log 0) :=
  ⟨⟨inv_idle [], by decide⟩, ⟨inv_failed [], by decide⟩, ⟨inv_done [], by decide⟩, by decide⟩

theorem witness_BusyBlockHoldsTheCommand :
    (Running (gf4At .exp0 0) ∧ (gf4At .exp0 0).busy = true ∧ ∃ t, step (gf4At .exp0 0) = .next t) ∧
    (Running (idleAt 1 0x3 []) ∧ (idleAt 1 0x3 []).busy = false ∧ (idleAt 1 0x3 []).port = none) :=
  ⟨⟨by decide, by decide, ⟨_, rfl⟩⟩, by decide⟩

theorem witness_ResetPutsEveryPieceAtItsValue :
    ({ gf4Fill 3 3 with rstIn := [0] } : State).cfg.legal = true ∧
    ({ gf4Fill 3 3 with rstIn := [0] } : State).rstNow = true := by decide

theorem witness_IllegalConfigurationRefused :
    (idleAt 0 0 []).cfg.legal = false ∧ (idleAt 13 0 []).cfg.legal = false ∧ (idleAt 4 0x9 []).cfg.legal = false := by
  decide

theorem witness_ConfigurationNeverChanges : ∃ t, step (gf4Fill 2 3) = .next t := ⟨_, rfl⟩

/-! ### The builder -/

theorem witness_TriggerClaimsTheBuild :
    (Running (idleAt 2 0x7 [0x10003000]) ∧ (idleAt 2 0x7 [0x10003000]).bs = .idle ∧
      (idleAt 2 0x7 [0x10003000]).port = some 0x10003000 ∧ decode 0x10003000 = .ok (.construct 3) ∧
      (Instr.construct 3).wellFormed ⟨2, 0x7⟩ = true ∧ (Instr.construct 3).needsTables = true) ∧
    ∃ t, step (idleAt 2 0x7 [0x10003000]) = .next t ∧ t.bs ≠ .idle :=
  ⟨by decide, _, rfl, by decide⟩

theorem witness_Exp0WritesOne : Running (gf4At .exp0 0) ∧ (gf4At .exp0 0).bs = .exp0 := by decide

/-- The lowest and the highest index. -/
theorem witness_ExpGenWritesTheNextPower :
    (Running { gf4At .expgen 1 with exp := [(0, 1)] } ∧
      ({ gf4At .expgen 1 with exp := [(0, 1)] } : State).cell .exp 0 = some 1) ∧
    (Running gf4Loop ∧ gf4Loop.bs = .expgen ∧ 1 ≤ gf4Loop.i.toNat ∧ gf4Loop.i.toNat ≤ gf4Loop.cfg.n ∧
      gf4Loop.cell .exp (gf4Loop.i.toNat - 1) = some 2) ∧
    (Running { gf4Fix with bs := .expgen } ∧ gf4Fix.i.toNat = gf4Fix.cfg.n ∧ gf4Fix.cell .exp (gf4Fix.i.toNat - 1) = some 3) := by
  decide

theorem witness_LogFixClearsLogOfOne : Running gf4Fix ∧ gf4Fix.bs = .logfix := by decide

theorem witness_CheckDecidesFillOrFailed :
    (Running (gf4At .check 3) ∧ (gf4At .check 3).bs = .check ∧ (gf4At .check 3).ordOk = true) ∧
    (Running { gf4At .check 3 with ordOk := false } ∧ ({ gf4At .check 3 with ordOk := false } : State).bs = .check ∧
      ({ gf4At .check 3 with ordOk := false } : State).ordOk = false) := by decide

/-- The zero case, the last pair of a row, and the last pair. -/
theorem witness_FillWritesOnePair :
    (Running (gf4Fill 0 0) ∧ (gf4Fill 0 0).bs = .fill ∧ (gf4Fill 0 0).a.toNat ≤ (gf4Fill 0 0).cfg.n ∧
      (gf4Fill 0 0).b.toNat ≤ (gf4Fill 0 0).cfg.n ∧ (gf4Fill 0 0).a = 0) ∧
    (Running (gf4Fill 2 3) ∧ (gf4Fill 2 3).bs = .fill ∧ (gf4Fill 2 3).cell .log 2 = some 1 ∧
      (gf4Fill 2 3).cell .log 3 = some 2 ∧ (gf4Fill 2 3).cell .exp ((1 + 2) % 3) = some 1 ∧
      (gf4Fill 2 3).cell .exp ((1 + 3 - 2) % 3) = some 3) ∧
    (Running (gf4Fill 3 3) ∧ (gf4Fill 3 3).cell .log 3 = some 2 ∧ (gf4Fill 3 3).cell .exp ((2 + 2) % 3) = some 2 ∧
      (gf4Fill 3 3).cell .exp ((2 + 3 - 2) % 3) = some 1) := by decide

theorem witness_CellWriteReadsBack :
    15 < cells (idleAt 2 0x7 []).cfg .mul ∧ 3 < cells (idleAt 2 0x7 []).cfg .log := by decide

theorem witness_ReductionIsExact :
    (Config.legal ⟨1, 0x3⟩ = true ∧ InRange ⟨1, 0x3⟩ 1) ∧ (Config.legal ⟨12, 0x1053⟩ = true ∧ InRange ⟨12, 0x1053⟩ 4095) := by
  decide

theorem witness_ExponentsReduceModN :
    (Config.legal ⟨1, 0x3⟩ = true ∧ (0 : Elem).toNat < Config.n ⟨1, 0x3⟩) ∧
    (Config.legal ⟨12, 0x1053⟩ = true ∧ (4094 : Elem).toNat < Config.n ⟨12, 0x1053⟩) := by decide

/-- A step from every phase. -/
theorem witness_PhaseTransitions :
    (∃ t, step (idleAt 2 0x7 [0x70003000]) = .next t) ∧ (∃ t, step (idleAt 2 0x7 [0x70004000]) = .next t) ∧
    (∃ t, step (gf4At .exp0 0) = .next t) ∧ (∃ t, step gf4Loop = .next t) ∧
    (∃ t, step { gf4Fix with bs := .expgen } = .next t) ∧ (∃ t, step gf4Fix = .next t) ∧
    (∃ t, step (gf4At .check 3) = .next t) ∧ (∃ t, step { gf4At .check 3 with ordOk := false } = .next t) ∧
    (∃ t, step (gf4Fill 2 3) = .next t) ∧ (∃ t, step (gf4Fill 3 3) = .next t) ∧
    (∃ t, step (builtAt 2 0x7 []) = .next t) ∧ (∃ t, step (builtAt 2 0x5 []) = .next t) ∧
    (∃ t, step { gf4Fill 3 3 with rstIn := [0] } = .next t) :=
  ⟨⟨_, rfl⟩, ⟨_, rfl⟩, ⟨_, rfl⟩, ⟨_, rfl⟩, ⟨_, rfl⟩, ⟨_, rfl⟩, ⟨_, rfl⟩, ⟨_, rfl⟩, ⟨_, rfl⟩, ⟨_, rfl⟩, ⟨_, rfl⟩,
    ⟨_, rfl⟩, ⟨_, rfl⟩⟩

theorem witness_InitFlagSaysABuildWasClaimed :
    (∃ t, step (idleAt 2 0x7 [0x70003000]) = .next t ∧ (idleAt 2 0x7 []).initFlag = false ∧ t.initFlag = true) ∧
    (∃ t, step { gf4Fill 3 3 with rstIn := [0] } = .next t ∧ (gf4Fill 3 3).initFlag = true ∧ t.initFlag = false) ∧
    (gf4Fill 3 3).initFlag = ((gf4Fill 3 3).bs != .idle) :=
  ⟨⟨_, rfl, by decide⟩, ⟨_, rfl, by decide⟩, by decide⟩

theorem witness_AtMostOneBuild :
    ((gf4Fill 3 3).rstIn = [] ∧ (gf4Fill 3 3).bs ≠ .idle ∧ ∃ t, runSteps 2 (gf4Fill 3 3) = .next t) ∧
    ∃ t, step (idleAt 2 0x7 [0x70003000]) = .next t ∧ t.bs = .exp0 :=
  ⟨⟨by decide, by decide, _, rfl⟩, _, rfl, by decide⟩

theorem witness_DoneTablesNeverChange :
    (builtAt 2 0x7 [0x70003000]).rstIn = [] ∧ (builtAt 2 0x7 [0x70003000]).bs = .done ∧
    ∃ t, runSteps 1 (builtAt 2 0x7 [0x70003000]) = .next t := ⟨by decide, by decide, _, rfl⟩

theorem witness_FailedIsTerminal :
    ((builtAt 2 0x5 [0x70003000]).rstIn = [] ∧ (builtAt 2 0x5 [0x70003000]).bs = .failed ∧
      ∃ t, runSteps 1 (builtAt 2 0x5 [0x70003000]) = .next t) ∧
    ((builtAt 2 0x5 []).cfg.legal = true ∧ (Instr.inv 3).wellFormed (builtAt 2 0x5 []).cfg = true ∧
      (Instr.inv 3).needsTables = true ∧ (Instr.neg 3).wellFormed (builtAt 2 0x5 []).cfg = true ∧
      (Instr.neg 3).needsTables = false) ∧
    Inv (builtAt 2 0x5 []) ∧ Inv (trigger (idleAt 2 0x5 [])) ∧
    (trigger (idleAt 2 0x5 [])).cfg = (builtAt 2 0x5 []).cfg :=
  ⟨⟨by decide, by decide, _, rfl⟩, by decide, inv_failed [], inv_exp0_invalid, by decide⟩

theorem witness_NoTableReadBeforeDone :
    (idleAt 2 0x7 []).bs ≠ .done ∧ (∃ t, exec (.mul 2 3) (idleAt 2 0x7 []) = .next t) ∧
    (builtAt 2 0x5 []).bs ≠ .done ∧ (∃ t, exec (.log 0) (builtAt 2 0x5 []) = .next t) :=
  ⟨by decide, ⟨_, rfl⟩, by decide, ⟨_, rfl⟩⟩

/-- Held, triggering, and executed. -/
theorem witness_CommandFrame :
    (∃ t, exec (.mul 2 3) (gf4Fill 2 3) = .next t) ∧ (∃ t, exec (.mul 2 3) (idleAt 2 0x7 []) = .next t) ∧
    (∃ t, exec (.div 3 0) (builtAt 2 0x7 [0x50003000]) = .next t) := ⟨⟨_, rfl⟩, ⟨_, rfl⟩, ⟨_, rfl⟩⟩

/-! ### The commands -/

/-- Every operand of a PURE command at the two ends of its range, in and out, for W = 1 and W = 12, and a word with RSV = 15
at the port. -/
theorem witness_AddAnswersXor :
    (Ready (idleAt 12 0 []) ∧ InRange (idleAt 12 0 []).cfg 4095 ∧ InRange (idleAt 12 0 []).cfg 0) ∧
    (Ready (idleAt 1 0x3 []) ∧ InRange (idleAt 1 0x3 []).cfg 1 ∧ ¬InRange (idleAt 1 0x3 []).cfg 2) ∧
    (Running (idleAt 1 0x3 [0x2F000000]) ∧ (idleAt 1 0x3 [0x2F000000]).busy = false ∧
      (idleAt 1 0x3 [0x2F000000]).port = some 0x2F000000 ∧ fieldOpc 0x2F000000 = 0x2 ∧ fieldRsv 0x2F000000 ≠ 0) := by decide

theorem witness_SubAnswersXor :
    (Ready (builtAt 2 0x5 []) ∧ InRange (builtAt 2 0x5 []).cfg 3 ∧ ¬InRange (builtAt 2 0x5 []).cfg 4) ∧
    (Running (idleAt 2 0x7 [0x31000000]) ∧ (idleAt 2 0x7 [0x31000000]).busy = false ∧
      (idleAt 2 0x7 [0x31000000]).port = some 0x31000000 ∧ fieldOpc 0x31000000 = 0x3 ∧ fieldRsv 0x31000000 ≠ 0) := by decide

theorem witness_NegAnswersItsOperand :
    (Ready (builtAt 2 0x7 []) ∧ InRange (builtAt 2 0x7 []).cfg 3 ∧ ¬InRange (builtAt 2 0x7 []).cfg 4) ∧
    (Running (idleAt 2 0x7 [0x60003001]) ∧ (idleAt 2 0x7 [0x60003001]).busy = false ∧
      (idleAt 2 0x7 [0x60003001]).port = some 0x60003001 ∧ fieldOpc 0x60003001 = 0x6 ∧ fieldB 0x60003001 ≠ 0) := by decide

theorem witness_MulAnswersTheMulCell :
    (Running (idleAt 2 0x7 [0x41000000]) ∧ (idleAt 2 0x7 [0x41000000]).busy = false ∧
      (idleAt 2 0x7 [0x41000000]).port = some 0x41000000 ∧ fieldOpc 0x41000000 = 0x4 ∧ fieldRsv 0x41000000 ≠ 0) ∧
    (Ready (idleAt 2 0x7 []) ∧ ¬InRange (idleAt 2 0x7 []).cfg 4) ∧
    ((idleAt 2 0x7 []).cfg.legal = true ∧ InRange (idleAt 2 0x7 []).cfg 3 ∧ (idleAt 2 0x7 []).bs = .idle) ∧
    ((builtAt 2 0x5 []).cfg.legal = true ∧ InRange (builtAt 2 0x5 []).cfg 3 ∧ (builtAt 2 0x5 []).bs = .failed) ∧
    ((builtAt 2 0x7 []).bs = .done ∧ InRange (builtAt 2 0x7 []).cfg 3 ∧
      (builtAt 2 0x7 []).cell .mul ((3 : Elem).toNat * (builtAt 2 0x7 []).cfg.q + (3 : Elem).toNat) = some 2) ∧
    Inv (builtAt 2 0x7 []) ∧ Inv (builtAt 1 0x3 []) :=
  ⟨by decide, by decide, by decide, by decide, by decide, inv_done [], inv_done_gf2 []⟩

theorem witness_DivAnswersTheDivCell :
    (Running (idleAt 2 0x7 [0x51000000]) ∧ (idleAt 2 0x7 [0x51000000]).busy = false ∧
      (idleAt 2 0x7 [0x51000000]).port = some 0x51000000 ∧ fieldOpc 0x51000000 = 0x5 ∧ fieldRsv 0x51000000 ≠ 0) ∧
    (Ready (idleAt 2 0x7 []) ∧ ¬InRange (idleAt 2 0x7 []).cfg 4) ∧
    ((idleAt 2 0x7 []).cfg.legal = true ∧ InRange (idleAt 2 0x7 []).cfg 3 ∧ (idleAt 2 0x7 []).bs = .idle) ∧
    ((builtAt 2 0x5 []).cfg.legal = true ∧ (builtAt 2 0x5 []).bs = .failed) ∧
    ((builtAt 2 0x7 []).bs = .done ∧ InRange (builtAt 2 0x7 []).cfg 3 ∧
      (builtAt 2 0x7 []).cell .div ((2 : Elem).toNat * (builtAt 2 0x7 []).cfg.q + (3 : Elem).toNat) = some 3 ∧
      (builtAt 2 0x7 []).cell .div ((3 : Elem).toNat * (builtAt 2 0x7 []).cfg.q + (0 : Elem).toNat) = some 0) ∧
    Inv (builtAt 2 0x7 []) ∧ Gives (builtAt 2 0x7 []) (.mul 3 3) false 2 :=
  ⟨by decide, by decide, by decide, by decide, by decide, inv_done [], rfl⟩

theorem witness_InvAnswersTheReciprocal :
    (Running (idleAt 2 0x7 [0x70003001]) ∧ (idleAt 2 0x7 [0x70003001]).busy = false ∧
      (idleAt 2 0x7 [0x70003001]).port = some 0x70003001 ∧ fieldOpc 0x70003001 = 0x7 ∧ fieldB 0x70003001 ≠ 0) ∧
    (Ready (idleAt 2 0x7 []) ∧ ¬InRange (idleAt 2 0x7 []).cfg 4) ∧
    ((idleAt 2 0x7 []).cfg.legal = true ∧ InRange (idleAt 2 0x7 []).cfg 3 ∧ (idleAt 2 0x7 []).bs = .idle) ∧
    ((builtAt 2 0x5 []).cfg.legal = true ∧ (builtAt 2 0x5 []).bs = .failed) ∧
    ((builtAt 2 0x7 []).bs = .done ∧
      (builtAt 2 0x7 []).cell .div (1 * (builtAt 2 0x7 []).cfg.q + (3 : Elem).toNat) = some 2) ∧
    Inv (builtAt 2 0x7 []) ∧ InRange (builtAt 2 0x7 []).cfg 3 :=
  ⟨by decide, by decide, by decide, by decide, by decide, inv_done [], by decide⟩

theorem witness_ConstructAnswersItsValue :
    (Running (idleAt 2 0x7 [0x10003FFF]) ∧ (idleAt 2 0x7 [0x10003FFF]).busy = false ∧
      (idleAt 2 0x7 [0x10003FFF]).port = some 0x10003FFF ∧ fieldOpc 0x10003FFF = 0x1 ∧ fieldB 0x10003FFF ≠ 0) ∧
    (Ready (idleAt 2 0x7 []) ∧ ¬InRange (idleAt 2 0x7 []).cfg 4 ∧ InRange (idleAt 2 0x7 []).cfg 3 ∧
      (idleAt 2 0x7 []).bs = .idle) ∧
    (Ready (builtAt 2 0x5 []) ∧ (builtAt 2 0x5 []).bs = .failed) ∧
    (Ready (builtAt 2 0x7 []) ∧ (builtAt 2 0x7 []).bs = .done) := by decide

theorem witness_ExpAnswersTheExpCell :
    (Running (idleAt 2 0x7 [0x80003800]) ∧ (idleAt 2 0x7 [0x80003800]).busy = false ∧
      (idleAt 2 0x7 [0x80003800]).port = some 0x80003800 ∧ fieldOpc 0x80003800 = 0x8 ∧ fieldB 0x80003800 ≠ 0) ∧
    (Ready (idleAt 2 0x7 []) ∧ ¬InRange (idleAt 2 0x7 []).cfg 4) ∧
    ((idleAt 2 0x7 []).cfg.legal = true ∧ InRange (idleAt 2 0x7 []).cfg 3 ∧ (idleAt 2 0x7 []).bs = .idle) ∧
    ((builtAt 2 0x5 []).cfg.legal = true ∧ (builtAt 2 0x5 []).bs = .failed) ∧
    ((builtAt 2 0x7 []).bs = .done ∧ (builtAt 2 0x7 []).cell .exp (3 : Elem).toNat = some 1) ∧
    (Inv (builtAt 2 0x7 []) ∧ 2 ≤ (builtAt 2 0x7 []).cfg.width) ∧ Inv (builtAt 1 0x3 []) :=
  ⟨by decide, by decide, by decide, by decide, by decide, ⟨inv_done [], by decide⟩, inv_done_gf2 []⟩

theorem witness_LogAnswersTheLogCell :
    (Running (idleAt 2 0x7 [0x90003001]) ∧ (idleAt 2 0x7 [0x90003001]).busy = false ∧
      (idleAt 2 0x7 [0x90003001]).port = some 0x90003001 ∧ fieldOpc 0x90003001 = 0x9 ∧ fieldB 0x90003001 ≠ 0) ∧
    (Ready (idleAt 2 0x7 []) ∧ ¬InRange (idleAt 2 0x7 []).cfg 4) ∧
    ((idleAt 2 0x7 []).cfg.legal = true ∧ InRange (idleAt 2 0x7 []).cfg 0 ∧ (idleAt 2 0x7 []).bs = .idle) ∧
    ((builtAt 2 0x5 []).cfg.legal = true ∧ (builtAt 2 0x5 []).bs = .failed) ∧
    ((builtAt 2 0x7 []).bs = .done ∧ (builtAt 2 0x7 []).cell .log (3 : Elem).toNat = some 2) ∧
    (Inv (builtAt 2 0x7 []) ∧ InRange (builtAt 2 0x7 []).cfg 3) ∧ Inv (builtAt 1 0x3 []) :=
  ⟨by decide, by decide, by decide, by decide, by decide, ⟨inv_done [], by decide⟩, inv_done_gf2 []⟩

theorem witness_WidthAnswersW :
    Ready (idleAt 1 0x3 []) ∧ Ready (builtAt 2 0x7 []) ∧ Ready (builtAt 2 0x5 []) ∧
    (Running (idleAt 2 0x7 [0xA0001000]) ∧ (idleAt 2 0x7 [0xA0001000]).busy = false ∧
      (idleAt 2 0x7 [0xA0001000]).port = some 0xA0001000 ∧ fieldOpc 0xA0001000 = 0xA ∧ fieldA 0xA0001000 ≠ 0) := by decide

theorem witness_MaxvalAnswersN :
    Ready (idleAt 12 0 []) ∧ Ready (builtAt 2 0x7 []) ∧ Ready (builtAt 2 0x5 []) ∧
    (Running (idleAt 2 0x7 [0xB0000001]) ∧ (idleAt 2 0x7 [0xB0000001]).busy = false ∧
      (idleAt 2 0x7 [0xB0000001]).port = some 0xB0000001 ∧ fieldOpc 0xB0000001 = 0xB ∧ fieldB 0xB0000001 ≠ 0) := by decide

theorem witness_StatusAnswersTheStatusWord :
    (Ready (idleAt 2 0x7 []) ∧ (idleAt 2 0x7 []).initFlag = ((idleAt 2 0x7 []).bs != .idle)) ∧
    (Ready (builtAt 2 0x7 []) ∧ (builtAt 2 0x7 []).initFlag = ((builtAt 2 0x7 []).bs != .idle)) ∧
    (Ready (builtAt 2 0x5 []) ∧ (builtAt 2 0x5 []).initFlag = ((builtAt 2 0x5 []).bs != .idle)) ∧
    (Running (idleAt 2 0x7 [0xC0000FFF]) ∧ (idleAt 2 0x7 [0xC0000FFF]).busy = false ∧
      (idleAt 2 0x7 [0xC0000FFF]).port = some 0xC0000FFF ∧ fieldOpc 0xC0000FFF = 0xC ∧ fieldB 0xC0000FFF ≠ 0) := by decide

/-! ### Invariants, the build and the laws -/

theorem witness_ResetMeetsTheInvariant : Config.legal ⟨1, 0x3⟩ = true ∧ Config.legal ⟨12, 0⟩ = true := by decide

theorem witness_StepKeepsTheInvariant :
    (Inv (gf4Fill 3 3) ∧ ∃ t, step (gf4Fill 3 3) = .next t) ∧ (Inv gf4Loop ∧ ∃ t, step gf4Loop = .next t) ∧
    (Inv gf4Fix ∧ ∃ t, step gf4Fix = .next t) :=
  ⟨⟨inv_fill_last, _, rfl⟩, ⟨inv_expgen, _, rfl⟩, inv_logfix, _, rfl⟩

theorem witness_NoStepStops : Inv (gf4Fill 2 3) ∧ Inv (builtAt 2 0x7 [0x90003000]) ∧ Inv (idleAt 2 0x7 [0xFFFFFFFF]) :=
  ⟨inv_fill, inv_done _, inv_idle _⟩

theorem witness_StepKeepsTablesCanonical :
    TablesCanonical (gf4Fill 2 3) ∧ (∃ t, step (gf4Fill 2 3) = .next t) ∧ Inv (gf4Fill 2 3) :=
  ⟨by decide, ⟨_, rfl⟩, inv_fill⟩

theorem witness_BuildEqualsTheWholeBuild :
    (Inv (gf4At .exp0 0) ∧ (gf4At .exp0 0).bs = .exp0 ∧ (gf4At .exp0 0).rstIn = []) ∧
    (Inv (idleAt 2 0x7 [0x90000000]) ∧ (idleAt 2 0x7 [0x90000000]).bs = .idle ∧ (idleAt 2 0x7 [0x90000000]).rstIn = [] ∧
      (idleAt 2 0x7 [0x90000000]).port = some 0x90000000 ∧ decode 0x90000000 = .ok (.log 0) ∧
      (Instr.log 0).wellFormed (idleAt 2 0x7 [0x90000000]).cfg = true ∧ (Instr.log 0).needsTables = true) :=
  ⟨⟨inv_exp0, by decide⟩, inv_idle _, by decide⟩

theorem witness_BuildTakesTheCountedSteps :
    (Inv (gf4At .exp0 0) ∧ (gf4At .exp0 0).bs = .exp0 ∧ (gf4At .exp0 0).rstIn = [] ∧
      configValid (gf4At .exp0 0).cfg = true) ∧
    (Inv (trigger (idleAt 2 0x5 [])) ∧ (trigger (idleAt 2 0x5 [])).bs = .exp0 ∧ (trigger (idleAt 2 0x5 [])).rstIn = [] ∧
      configValid (trigger (idleAt 2 0x5 [])).cfg = false) :=
  ⟨⟨inv_exp0, by decide⟩, inv_exp0_invalid, by decide⟩

/-- GF(4) and GF(2), both in B_DONE: the smallest fields, with operands at both ends of their ranges below. -/
theorem witness_TablesAreTheFieldsTables :
    (Inv (builtAt 2 0x7 []) ∧ (builtAt 2 0x7 []).bs = .done ∧ 2 ≤ (builtAt 2 0x7 []).cfg.width ∧
      InRange (builtAt 2 0x7 []).cfg 0 ∧ InRange (builtAt 2 0x7 []).cfg 3) ∧
    (Inv (builtAt 2 0x7 [0xC0000000]) ∧ (builtAt 2 0x7 [0xC0000000]).bs = .done ∧
      (builtAt 2 0x7 []).cfg = (builtAt 2 0x7 [0xC0000000]).cfg) ∧
    Inv (builtAt 1 0x3 []) ∧ (builtAt 1 0x3 []).bs = .done :=
  ⟨⟨inv_done [], by decide⟩, ⟨inv_done _, by decide⟩, inv_done_gf2 [], by decide⟩

theorem witness_ExpAndLogAreMutualInverses :
    Inv (builtAt 2 0x7 []) ∧ (builtAt 2 0x7 []).bs = .done ∧ InRange (builtAt 2 0x7 []).cfg 3 ∧ (3 : Elem) ≠ 0 :=
  ⟨inv_done [], by decide⟩

theorem witness_MulCellIsTheSumOfLogarithms :
    Inv (builtAt 2 0x7 []) ∧ (builtAt 2 0x7 []).bs = .done ∧ InRange (builtAt 2 0x7 []).cfg 0 ∧
    InRange (builtAt 2 0x7 []).cfg 3 := ⟨inv_done [], by decide⟩

theorem witness_DivCellIsTheDifferenceOfLogarithms :
    Inv (builtAt 1 0x3 []) ∧ (builtAt 1 0x3 []).bs = .done ∧ InRange (builtAt 1 0x3 []).cfg 0 ∧
    InRange (builtAt 1 0x3 []).cfg 1 := ⟨inv_done_gf2 [], by decide⟩

theorem witness_OperationsAreClosedAndTotal :
    (Ready (builtAt 2 0x5 []) ∧ InRange (builtAt 2 0x5 []).cfg 3) ∧
    (Inv (builtAt 2 0x7 []) ∧ (builtAt 2 0x7 []).bs = .done ∧ InRange (builtAt 2 0x7 []).cfg 3 ∧
      InRange (builtAt 2 0x7 []).cfg 0 ∧ (Instr.log 0).wellFormed (builtAt 2 0x7 []).cfg = true) :=
  ⟨by decide, inv_done [], by decide⟩

theorem witness_MultiplicativeGroupLaws :
    Inv (builtAt 2 0x7 []) ∧ (builtAt 2 0x7 []).bs = .done ∧ InRange (builtAt 2 0x7 []).cfg 2 ∧
    InRange (builtAt 2 0x7 []).cfg 3 ∧ InRange (builtAt 2 0x7 []).cfg 0 ∧ (2 : Elem) ≠ 0 := ⟨inv_done [], by decide⟩

theorem witness_MulDistributesOverAdd :
    Inv (builtAt 2 0x7 []) ∧ (builtAt 2 0x7 []).bs = .done ∧ InRange (builtAt 2 0x7 []).cfg 2 ∧
    InRange (builtAt 2 0x7 []).cfg 3 ∧ InRange (builtAt 2 0x7 []).cfg 0 := ⟨inv_done [], by decide⟩

/-- Two states of one configuration with different histories. -/
theorem witness_AnswersDependOnTheConfigurationAlone :
    Inv (builtAt 2 0x7 []) ∧ Inv (answered 0x8000 (builtAt 2 0x7 [0x90000000])) ∧ (builtAt 2 0x7 []).bs = .done ∧
    (answered 0x8000 (builtAt 2 0x7 [0x90000000])).bs = .done ∧
    (builtAt 2 0x7 []).cfg = (answered 0x8000 (builtAt 2 0x7 [0x90000000])).cfg :=
  ⟨inv_done [], (inv_done _).answered _, by decide⟩

theorem witness_ValidExactlyWhenPowersAreABijection :
    Config.legal ⟨1, 0x2⟩ = true ∧ Config.legal ⟨4, 0x13⟩ = true ∧ InRange ⟨4, 0x13⟩ 15 ∧
    (Inv gf4Fix ∧ gf4Fix.bs = .logfix) := ⟨by decide, by decide, by decide, inv_logfix, by decide⟩

theorem witness_DefaultPolynomialIsAllowed : (1 ≤ 1 ∧ 1 ≤ 12) ∧ (1 ≤ 12 ∧ 12 ≤ 12) := by decide

theorem witness_TwoValidPolynomialsOfDegreeFour : (0x1F : Poly).toNat < 32 ∧ 16 ≤ (0x10 : Poly).toNat := by decide

theorem witness_AdditiveGroupLaws :
    Ready (idleAt 12 0 []) ∧ InRange (idleAt 12 0 []).cfg 4095 ∧ InRange (idleAt 12 0 []).cfg 0 ∧
    Ready (builtAt 2 0x5 []) ∧ InRange (builtAt 2 0x5 []).cfg 3 := by decide

/-- A response with dz and one without. -/
theorem witness_DzMarksExactlyTheZeroDivisors :
    (Inv (builtAt 2 0x7 [0x50003000]) ∧ ∃ t, execWord 0x50003000 (builtAt 2 0x7 [0x50003000]) = .next t ∧
      t.emitted = t.rsp :: (builtAt 2 0x7 [0x50003000]).emitted ∧ t.rsp.getLsbD 12 = true) ∧
    (Inv (builtAt 2 0x7 [0x40003000]) ∧ ∃ t, execWord 0x40003000 (builtAt 2 0x7 [0x40003000]) = .next t ∧
      t.emitted = t.rsp :: (builtAt 2 0x7 [0x40003000]).emitted ∧ t.rsp.getLsbD 12 = false) :=
  ⟨⟨inv_done _, _, rfl, by decide⟩, inv_done _, _, rfl, by decide⟩

end Sys2Proof.Tests
end

section
/-! PROOFS. What a command and a BUILD step can do, said once; the obligations on steps and configurations of
00_scope.md. -/

namespace Sys2Proof.Machine

/-! ## A command

Every command is the prologue of R130 around a run of its own, so what the prologue does holds of every command. -/

/-- `t` is `s` with one command answered; a code other than OK carries dz = 0 and result 0 (R87). -/
inductive Answers (s : State) : State → Prop where
  | intro (code : Code) (dz : Bool) (result : Elem) (zero : code ≠ .ok → dz = false ∧ result = 0) :
      Answers s (respond code dz result s)

theorem answer_answers {v : Elem} {s t : State} (h : answer v s = .next t) : Answers s t := by
  cases h
  exact ⟨.ok, false, v, by simp⟩

theorem answerCell_answers {sp : Space} {k : Nat} {dz : Bool} {s t : State} (h : answerCell sp k dz s = .next t) :
    Answers s t := by
  unfold answerCell at h
  split at h <;> cases h
  exact ⟨.ok, dz, _, by simp⟩

/-- The run of LOG, where UNDEF is decided last (R152). -/
theorem logRun_answers {e : Elem} {s t : State}
    (h : (if e = 0 then .next (respond .undef false 0 s) else answerCell .log e.toNat false s) = .next t) :
    Answers s t := by
  split_ifs at h
  · cases h
    exact ⟨.undef, false, 0, by simp⟩
  · exact answerCell_answers h

/-- A TABLE command is the prologue around a run that takes the TRIGGER step in B_IDLE and answers elsewhere
(R92, R101). -/
theorem tableCommand_eq_command {i : Instr} {s : State} {run : State → Result} (hi : i.needsTables = true)
    (hrun : ∀ t, run s = .next t → Answers s t) :
    ∃ run', tableCommand i.operands run s = command i.operands run' s ∧
      ∀ t, run' s = .next t → (s.bs = .idle ∧ i.needsTables = true ∧ t = trigger s) ∨ Answers s t := by
  refine ⟨_, rfl, fun t h => ?_⟩
  split at h
  next hidle => cases h; exact .inl ⟨hidle, hi, rfl⟩
  next => cases h; exact .inr ⟨.badcfg, false, 0, by simp⟩
  next => exact .inr (hrun t h)

/-- Every command is the prologue around a run that takes the TRIGGER step, if it is a TABLE command in B_IDLE, or
answers (R92, R101, R130). -/
theorem exec_eq_command (i : Instr) (s : State) :
    ∃ run, exec i s = command i.operands run s ∧
      ∀ t, run s = .next t → (s.bs = .idle ∧ i.needsTables = true ∧ t = trigger s) ∨ Answers s t := by
  cases i with
  | construct v => exact tableCommand_eq_command (i := .construct v) rfl fun _ => answer_answers
  | add a b => exact ⟨_, rfl, fun _ h => .inr (answer_answers h)⟩
  | sub a b => exact ⟨_, rfl, fun _ h => .inr (answer_answers h)⟩
  | mul a b => exact tableCommand_eq_command (i := .mul a b) rfl fun _ => answerCell_answers
  | div a b => exact tableCommand_eq_command (i := .div a b) rfl fun _ => answerCell_answers
  | neg a => exact ⟨_, rfl, fun _ h => .inr (answer_answers h)⟩
  | inv a => exact tableCommand_eq_command (i := .inv a) rfl fun _ => answerCell_answers
  | exp k => exact tableCommand_eq_command (i := .exp k) rfl fun _ => answerCell_answers
  | log e =>
    exact tableCommand_eq_command (i := .log e) (s := s) rfl
      (run := fun s => if e = 0 then .next (respond .undef false 0 s) else answerCell .log e.toNat false s)
      fun _ => logRun_answers
  | width => exact ⟨_, rfl, fun _ h => .inr (answer_answers h)⟩
  | maxval => exact ⟨_, rfl, fun _ h => .inr (answer_answers h)⟩
  | status => exact ⟨_, rfl, fun _ h => .inr (answer_answers h)⟩

/-- R234: while BUSY every command is held. -/
theorem exec_held {s : State} (i : Instr) (hl : s.cfg.legal = true) (hb : s.busy = true) : exec i s = .next s := by
  obtain ⟨run, hrun, -⟩ := exec_eq_command i s
  rw [hrun, command_held run hl hb]

/-- R5: under an illegal configuration every command is refused. -/
theorem exec_refused {s : State} (i : Instr) (hl : s.cfg.legal = false) :
    exec i s = .refused .illegalConfiguration := by
  obtain ⟨run, hrun, -⟩ := exec_eq_command i s
  rw [hrun, command_refused run hl]

/-- Everything a command can do when it answers a next state: it is held, it triggers the build, or it is answered. -/
theorem exec_next {i : Instr} {s t : State} (h : exec i s = .next t) :
    (s.busy = true ∧ t = s) ∨
      (s.bs = .idle ∧ i.needsTables = true ∧ i.wellFormed s.cfg = true ∧ t = trigger s) ∨
      (s.busy = false ∧ Answers s t) := by
  obtain ⟨run, hexec, hrun⟩ := exec_eq_command i s
  rw [hexec] at h
  obtain ⟨-, held | ⟨hb, -, rfl⟩ | ⟨hb, hops, h⟩⟩ := command_next h
  · exact .inl held
  · exact .inr (.inr ⟨hb, .range, false, 0, by simp⟩)
  · rw [all_inRange_eq] at hops
    obtain ⟨hidle, htable, ht⟩ | hans := hrun t h
    · exact .inr (.inl ⟨hidle, htable, hops, ht⟩)
    · exact .inr (.inr ⟨hb, hans⟩)

/-- A word that decodes runs its command (R88). -/
theorem execWord_ok {w : CmdWord} {i : Instr} (s : State) (h : decode w = .ok i) : execWord w s = exec i s := by
  simp only [execWord, h]

/-- A word that does not decode is answered ILLEGAL (R85). -/
theorem execWord_error {w : CmdWord} {e : DecodeError} (s : State) (h : decode w = .error e) :
    execWord w s = .next (answered 0x2000 s) := by
  simp only [execWord, h, respond_eq_answered, rspWord_illegal]

theorem Answers.cfg {s t : State} (h : Answers s t) : t.cfg = s.cfg := by
  cases h
  exact respond_cfg ..

/-- A step on a word leaves the configuration alone. -/
theorem execWord_cfg {w : CmdWord} {s t : State} (h : execWord w s = .next t) : t.cfg = s.cfg := by
  cases hd : decode w with
  | error e =>
    rw [execWord_error s hd] at h
    cases h
    exact answered_cfg ..
  | ok i =>
    rw [execWord_ok s hd] at h
    obtain ⟨-, rfl⟩ | ⟨-, -, -, rfl⟩ | ⟨-, hans⟩ := exec_next h
    · rfl
    · exact trigger_cfg s
    · exact hans.cfg

/-! ## A BUILD step -/

/-- What no BUILD step writes (R102 to R108): the parameters, INIT_FLAG, RSP and the environment's side of the ports. -/
structure BuildFrame (s t : State) : Prop where
  cfg : t.cfg = s.cfg
  initFlag : t.initFlag = s.initFlag
  rsp : t.rsp = s.rsp
  cmds : t.cmds = s.cmds
  rstIn : t.rstIn = s.rstIn
  emitted : t.emitted = s.emitted

theorem BuildFrame.refl (s : State) : BuildFrame s s := ⟨rfl, rfl, rfl, rfl, rfl, rfl⟩

theorem BuildFrame.trans {s t u : State} (h : BuildFrame s t) (h' : BuildFrame t u) : BuildFrame s u :=
  ⟨h'.cfg.trans h.cfg, h'.initFlag.trans h.initFlag, h'.rsp.trans h.rsp, h'.cmds.trans h.cmds,
    h'.rstIn.trans h.rstIn, h'.emitted.trans h.emitted⟩

/-- The builder's own registers are outside the frame. -/
theorem BuildFrame.registers {s t : State} (h : BuildFrame s t) (bs : Phase) (i a b : Elem) (ok : Bool) :
    BuildFrame s { t with bs := bs, i := i, a := a, b := b, ordOk := ok } :=
  ⟨h.cfg, h.initFlag, h.rsp, h.cmds, h.rstIn, h.emitted⟩

theorem writeCell_buildFrame {s t : State} {sp : Space} {k : Nat} {v : Elem} (h : s.writeCell sp k v = .ok t) :
    BuildFrame s t := by
  obtain ⟨-, rfl⟩ := writeCell_eq_ok.1 h
  cases sp <;> exact ⟨rfl, rfl, rfl, rfl, rfl, rfl⟩

/-- A computation that may fault answers only when each of its parts does. -/
theorem bind_eq_ok {α β : Type} {x : Except Fault α} {f : α → Except Fault β} {b : β} :
    x >>= f = .ok b ↔ ∃ a, x = .ok a ∧ f a = .ok b := by
  cases x <;> simp [bind, Except.bind]

theorem buildExp0_frame {s t : State} (h : buildExp0 s = .ok t) : BuildFrame s t := by
  obtain ⟨s1, h1, ⟨⟩⟩ := bind_eq_ok.1 h
  exact (writeCell_buildFrame h1).registers ..

theorem buildExpGen_frame {s t : State} (h : buildExpGen s = .ok t) : BuildFrame s t := by
  unfold buildExpGen at h
  split at h
  · cases h
  obtain ⟨u, -, h⟩ := bind_eq_ok.1 h
  obtain ⟨s1, h1, h⟩ := bind_eq_ok.1 h
  obtain ⟨s2, h2, ⟨⟩⟩ := bind_eq_ok.1 h
  exact ((writeCell_buildFrame h1).trans (writeCell_buildFrame h2)).registers ..

theorem buildLogFix_frame {s t : State} (h : buildLogFix s = .ok t) : BuildFrame s t := by
  obtain ⟨s1, h1, ⟨⟩⟩ := bind_eq_ok.1 h
  exact (writeCell_buildFrame h1).registers ..

theorem buildCheck_frame {s t : State} (h : buildCheck s = .ok t) : BuildFrame s t := by
  unfold buildCheck at h
  split_ifs at h <;> cases h <;> exact (BuildFrame.refl s).registers ..

theorem nextPair_frame (s : State) : BuildFrame s (nextPair s) := by
  unfold nextPair
  split_ifs <;> exact (BuildFrame.refl s).registers ..

theorem buildFill_frame {s t : State} (h : buildFill s = .ok t) : BuildFrame s t := by
  obtain ⟨md, -, h⟩ := bind_eq_ok.1 h
  obtain ⟨s1, h1, h⟩ := bind_eq_ok.1 h
  obtain ⟨s2, h2, ⟨⟩⟩ := bind_eq_ok.1 h
  exact ((writeCell_buildFrame h1).trans (writeCell_buildFrame h2)).trans (nextPair_frame s2)

/-- A BUILD step writes the tables and the builder's own registers only. -/
theorem buildStep_frame {s t : State} (h : buildStep s = .next t) : BuildFrame s t := by
  cases hbs : s.bs <;> simp only [buildStep, hbs] at h
  case exp0 => exact buildExp0_frame (finish_eq_next.1 h)
  case expgen => exact buildExpGen_frame (finish_eq_next.1 h)
  case logfix => exact buildLogFix_frame (finish_eq_next.1 h)
  case check => exact buildCheck_frame (finish_eq_next.1 h)
  case fill => exact buildFill_frame (finish_eq_next.1 h)
  case idle | done | failed => cases h; exact .refl s

/-! ## A step -/

/-- With no reset due, a step counts down to the next reset and goes on (R10). -/
theorem step_of_running {s : State} (hs : Running s) : step s = stepNoReset (tick s) := by
  simp [step, hs.1, hs.2]

/-- While BUSY the step is the BUILD step (R10). -/
theorem step_busy {s : State} (hs : Running s) (hb : s.busy = true) : step s = buildStep (tick s) :=
  (step_of_running hs).trans (if_pos hb)

/-- With no build running, the step is the one on the word at the port (R10). -/
theorem step_word {s : State} {w : CmdWord} (hs : Running s) (hb : s.busy = false) (hp : s.port = some w) :
    step s = execWord w (tick s) := by
  have hb' : (tick s).busy = false := hb
  have hp' : (tick s).port = some w := hp
  simp only [step_of_running hs, stepNoReset, hb', hp', Bool.false_eq_true, if_false]

/-- With no build running and no word at the port, the block waits (R10). -/
theorem step_waits {s : State} (hs : Running s) (hb : s.busy = false) (hp : s.port = none) :
    step s = .next (tick s) := by
  have hb' : (tick s).busy = false := hb
  have hp' : (tick s).port = none := hp
  simp only [step_of_running hs, stepNoReset, hb', hp', Bool.false_eq_true, if_false]

/-- R5: under an illegal configuration the step is refused. -/
theorem step_refused {s : State} (hl : s.cfg.legal = false) : step s = .refused .illegalConfiguration := by
  simp [step, hl]

/-- Settles O6: the step on a word is `execWord`, and a word that decodes runs its command. -/
theorem stepRunsTheDecodedCommand : Obligations.StepRunsTheDecodedCommand := by
  intro s w i hs hb hp hd
  exact ⟨(step_word hs hb hp).trans (execWord_ok _ hd), rfl⟩

/-- Settles O9: a BUILD step writes neither port nor RSP (`buildStep_frame`), and while BUSY every command is held. -/
theorem busyBlockHoldsTheCommand : Obligations.BusyBlockHoldsTheCommand := by
  intro s hs
  refine ⟨fun hb => ?_, step_waits hs⟩
  have notReady : s.cmdReady = false := by rw [State.cmdReady, hb, Bool.not_true]
  refine ⟨notReady, step_busy hs hb, fun i => exec_held i hs.1 hb, fun t ht => ?_⟩
  rw [step_busy hs hb] at ht
  have frame := buildStep_frame ht
  exact ⟨frame.cmds, frame.emitted, frame.rsp⟩

/-- Settles O13: none of the four kinds of step writes the configuration. -/
theorem configurationNeverChanges : Obligations.ConfigurationNeverChanges := by
  intro s t h
  obtain ⟨-, ⟨-, rfl⟩ | ⟨-, -, h⟩ | ⟨-, -, -, rfl⟩ | ⟨-, -, w, -, h⟩⟩ := step_next h
  · exact applyReset_cfg s
  · exact (buildStep_frame h).cfg.trans (tick_cfg s)
  · exact tick_cfg s
  · exact (execWord_cfg h).trans (tick_cfg s)

/-! ## Polynomials and configurations -/

/-- No bit above bit `w` is set. -/
theorem shiftRight_succ_eq_zero_iff (p : Poly) (w : Nat) :
    p >>> (w + 1) = 0 ↔ ∀ k, w < k → p.getLsbD k = false := by
  constructor
  · intro h k hk
    have hbit : (p >>> (w + 1)).getLsbD (k - (w + 1)) = false := by rw [h]; exact BitVec.getLsbD_zero
    rwa [BitVec.getLsbD_ushiftRight, Nat.add_sub_cancel' hk] at hbit
  · intro h
    apply BitVec.eq_of_getLsbD_eq
    intro j _
    rw [BitVec.getLsbD_ushiftRight, h _ (by omega)]
    exact BitVec.getLsbD_zero.symm

/-- R5, bit by bit. -/
theorem config_legal_iff (c : Config) : c.legal = true ↔
    1 ≤ c.width ∧ c.width ≤ 12 ∧
      (c.polyIn = 0 ∨ (c.polyIn.getLsbD c.width = true ∧ ∀ k, c.width < k → c.polyIn.getLsbD k = false)) := by
  simp only [Config.legal, Bool.and_eq_true, Bool.or_eq_true, decide_eq_true_eq, beq_iff_eq,
    shiftRight_succ_eq_zero_iff, and_assoc]

/-- Settles O12: P_IN has no bit above bit 12, so `config_legal_iff` is R5; the prologue refuses every command. -/
theorem illegalConfigurationRefused : Obligations.IllegalConfigurationRefused := by
  refine ⟨fun c => ?_, fun s hl => ⟨step_refused hl, fun i => exec_refused i hl⟩⟩
  have bits : (∀ k, c.width < k → k ≤ 12 → c.polyIn.getLsbD k = false) ↔
      ∀ k, c.width < k → c.polyIn.getLsbD k = false := by
    refine ⟨fun h k hk => ?_, fun h k hk _ => h k hk⟩
    by_cases hk' : k ≤ 12
    · exact h k hk hk'
    · exact BitVec.getLsbD_of_ge _ _ (by omega)
  rw [config_legal_iff, bits]

theorem noEarlyOne_iff (w : Nat) (p : Poly) (k : Nat) :
    noEarlyOne w p k = true ↔ ∀ i, 1 ≤ i → i < k → powX w p i ≠ 1 := by
  simp only [noEarlyOne, List.all_eq_true, List.mem_range, Bool.or_eq_true, beq_iff_eq, bne_iff_ne]
  exact forall_congr' fun i =>
    ⟨fun h h1 hk => (h hk).resolve_left (by omega), fun h hk => or_iff_not_imp_left.2 fun h0 => h (by omega) hk⟩

/-- R106: x has multiplicative order exactly N. -/
theorem validPoly_iff (w : Nat) (p : Poly) : validPoly w p = true ↔
    powX w p (2 ^ w - 1) = 1 ∧ ∀ i, 1 ≤ i → i < 2 ^ w - 1 → powX w p i ≠ 1 := by
  rw [validPoly, Bool.and_eq_true, noEarlyOne_iff, beq_iff_eq, and_comm]

/-- One walk over the powers of x: from `u`, exactly `k` more multiplications by x lead to the first 1. -/
def firstOneAfter (w : Nat) (p : Poly) : Nat → Elem → Bool
  | 0, u => u == 1
  | k + 1, u => u != 1 && firstOneAfter w p k (xtime w p u)

theorem firstOneAfter_powX (w : Nat) (p : Poly) (k j : Nat) (h : firstOneAfter w p k (powX w p j) = true) :
    powX w p (j + k) = 1 ∧ ∀ i, j ≤ i → i < j + k → powX w p i ≠ 1 := by
  induction k generalizing j with
  | zero => exact ⟨by simpa [firstOneAfter] using h, fun i _ _ => by omega⟩
  | succ k ih =>
    simp only [firstOneAfter, Bool.and_eq_true, bne_iff_ne] at h
    obtain ⟨last, early⟩ := ih (j + 1) h.2
    rw [Nat.add_right_comm, Nat.add_assoc] at last
    refine ⟨last, fun i hi hlt => ?_⟩
    rcases hi.eq_or_lt with rfl | hi
    · exact h.1
    · exact early i hi (by omega)

/-- One walk from e_1 decides VALID (R106). -/
theorem validPoly_of_firstOneAfter {w : Nat} {p : Poly} (hw : 1 ≤ w)
    (h : firstOneAfter w p (2 ^ w - 2) (powX w p 1) = true) : validPoly w p = true := by
  have hq : 2 ^ 1 ≤ 2 ^ w := Nat.pow_le_pow_right (by omega) hw
  have hN : 1 + (2 ^ w - 2) = 2 ^ w - 1 := by omega
  rw [validPoly_iff, ← hN]
  exact firstOneAfter_powX w p _ 1 h

/-- R4, bit by bit. -/
theorem defaultAllowed_iff (w : Nat) (p : Poly) : defaultAllowed w p = true ↔
    p.getLsbD w = true ∧ (∀ k, w < k → p.getLsbD k = false) ∧ validPoly w p = true := by
  simp only [defaultAllowed, Bool.and_eq_true, beq_iff_eq, shiftRight_succ_eq_zero_iff, and_assoc]

/-- The twelve polynomials of 93_implementation_defined.md G1 are primitive: one walk of N steps for each. -/
theorem knownPrimitive_firstOneAfter : ∀ w < 13, 1 ≤ w →
    firstOneAfter w (knownPrimitive w) (2 ^ w - 2) (powX w (knownPrimitive w) 1) = true := by
  decide +kernel

theorem knownPrimitive_degree : ∀ w < 13, 1 ≤ w →
    (knownPrimitive w).getLsbD w = true ∧ knownPrimitive w >>> (w + 1) = 0 := by
  decide

theorem knownPrimitive_allowed {w : Nat} (h1 : 1 ≤ w) (h12 : w ≤ 12) :
    defaultAllowed w (knownPrimitive w) = true := by
  have hw : w < 13 := by omega
  obtain ⟨top, high⟩ := knownPrimitive_degree w hw h1
  exact (defaultAllowed_iff ..).2 ⟨top, (shiftRight_succ_eq_zero_iff ..).1 high,
    validPoly_of_firstOneAfter h1 (knownPrimitive_firstOneAfter w hw h1)⟩

/-- R4, whatever the open value is: either it meets the limits itself, or the known polynomial stands in. -/
theorem defaultPoly_allowed {w : Nat} (h1 : 1 ≤ w) (h12 : w ≤ 12) : defaultAllowed w (defaultPoly w) = true := by
  unfold defaultPoly
  split_ifs with h
  · exact h
  · exact knownPrimitive_allowed h1 h12

/-- R103: x·u is u shifted where no reduction takes place. -/
theorem xtime_of_not_reduced {w : Nat} {u : Elem} (p : Poly) (h : ¬ 2 ^ w ≤ (u.setWidth 13 <<< 1).toNat) :
    xtime w p u = lowBits w (u.setWidth 13 <<< 1) := by
  simp only [xtime, h, if_false]

/-- For W = 8 the first power is x itself, whatever P is. -/
theorem powX_eight_one (p : Poly) : powX 8 p 1 = 2 :=
  (xtime_of_not_reduced (u := 1) p (by decide)).trans (by decide)

/-- Settles O50: `defaultPoly_allowed`; exp[255] = 1 is part of VALID for w = 8. -/
theorem defaultPolynomialIsAllowed : Obligations.DefaultPolynomialIsAllowed := by
  have limits := fun w h1 h12 => (defaultAllowed_iff w _).1 (defaultPoly_allowed h1 h12)
  obtain ⟨-, -, valid8⟩ := limits 8 (by decide) (by decide)
  exact ⟨limits, powX_eight_one _, ((validPoly_iff ..).1 valid8).1⟩

end Sys2Proof.Machine
end

section
/-! PROOFS. The state (10_state.md): what a step can do to it, what each BUILD step writes, what the tables hold in B_DONE,
and the invariant of every run. -/

namespace Sys2Proof.Machine

/-! ## Cells (20_memory.md R57, R59) -/

theorem setTable_cell_same (s : State) (sp : Space) (m : Memory) (k : Nat) : (s.setTable sp m).cell sp k = m.read k := by
  cases sp <;> rfl

/-- A table replaced leaves every other table alone. -/
theorem setTable_cell_other {sp sp' : Space} (s : State) (m : Memory) (k : Nat) (h : sp' ≠ sp) :
    (s.setTable sp m).cell sp' k = s.cell sp' k := by
  cases sp <;> cases sp' <;> simp_all [State.cell, State.table]

/-- A table replaced leaves every register alone. -/
theorem setTable_registers (s : State) (sp : Space) (m : Memory) :
    { s.setTable sp m with exp := s.exp, log := s.log, mul := s.mul, div := s.div } = s := by
  cases sp <;> rfl

/-- Settles O20: a write replaces one table by the same table with one cell written. -/
theorem cellWriteReadsBack : Obligations.CellWriteReadsBack := by
  intro s sp k v hk
  refine ⟨_, writeCell_eq_ok.2 ⟨hk, rfl⟩, ?_, fun sp' k' hne => ?_, setTable_registers ..⟩
  · rw [setTable_cell_same, Memory.read_write_same]
  · by_cases hsp : sp' = sp
    · subst hsp
      have hk' : k' ≠ k := fun hk' => hne ⟨rfl, hk'⟩
      rw [setTable_cell_same, Memory.read_write_other _ hk', State.cell]
    · exact setTable_cell_other s _ k' hsp

/-! ## A step, by its effect -/

/-- A command answered changes RSP and the ports only. -/
theorem Answers.eq_answered {s t : State} (h : Answers s t) : ∃ r, t = answered r s := by
  cases h
  exact ⟨_, rfl⟩

/-- With no build running, a step on a word claims the build or answers (R88, R101, R130). -/
theorem execWord_next {w : CmdWord} {s t : State} (hb : s.busy = false) (h : execWord w s = .next t) :
    (s.bs = .idle ∧ t = trigger s ∧ ∃ i, decode w = .ok i ∧ i.wellFormed s.cfg = true ∧ i.needsTables = true) ∨
      Answers s t := by
  cases hd : decode w with
  | error e =>
    simp only [execWord, hd, Host.Outcome.next.injEq] at h
    exact .inr (h ▸ ⟨.illegal, false, 0, by simp⟩)
  | ok i =>
    rw [execWord_ok s hd] at h
    obtain ⟨hb', -⟩ | ⟨hidle, htable, hwf, ht⟩ | ⟨-, hans⟩ := exec_next h
    · cases hb.symm.trans hb'
    · exact .inl ⟨hidle, ht, i, rfl, hwf, htable⟩
    · exact .inr hans

/-- R10: a step that answers a next state is a reset, a BUILD step, a TRIGGER step, an answer, or an idle step. -/
theorem step_effect {s t : State} (h : step s = .next t) :
    (s.rstNow = true ∧ t = applyReset s) ∨
      (s.busy = true ∧ buildStep (tick s) = .next t) ∨
      (s.bs = .idle ∧ t = trigger (tick s)) ∨
      (s.busy = false ∧ ∃ r, t = answered r (tick s)) ∨
      (s.busy = false ∧ t = tick s) := by
  obtain ⟨-, hreset | ⟨-, hbuild⟩ | ⟨-, hb, -, ht⟩ | ⟨-, hb, w, -, hw⟩⟩ := step_next h
  · exact .inl hreset
  · exact .inr (.inl hbuild)
  · exact .inr (.inr (.inr (.inr ⟨hb, ht⟩)))
  · obtain ⟨hidle, ht, -⟩ | hans := execWord_next (s := tick s) hb hw
    · exact .inr (.inr (.inl ⟨hidle, ht⟩))
    · exact .inr (.inr (.inr (.inl ⟨hb, hans.eq_answered⟩)))

/-- A fact that every step keeps holds at the end of every run. -/
theorem runSteps_keeps {P : State → Prop} (keep : ∀ s t, P s → step s = .next t → P t) {k : Nat} {s t : State}
    (hs : P s) (h : runSteps k s = .next t) : P t := by
  induction k generalizing s with
  | zero => cases h; exact hs
  | succ k ih =>
    simp only [runSteps, Host.Core.run] at h
    split at h
    next u hu => exact ih (keep s u hs hu) h
    all_goals cases h

/-- `t` differs from `s` at most in RSP and the environment's side of the ports (R41, R111). -/
def OnlyAnswered (s t : State) : Prop := t = { s with rsp := t.rsp, cmds := t.cmds, emitted := t.emitted }

theorem tick_of_no_reset {s : State} (h : s.rstIn = []) : tick s = s := by
  cases s
  cases h
  rfl

/-- R110, R111: with the build over and no reset scheduled, a step changes RSP and the ports only. -/
theorem step_onlyAnswered {s t : State} (hb : s.busy = false) (hi : s.bs ≠ .idle) (hr : s.rstIn = [])
    (h : step s = .next t) : OnlyAnswered s t := by
  have hnow : s.rstNow = false := by simp [State.rstNow, hr]
  obtain ⟨hrst, -⟩ | ⟨hbusy, -⟩ | ⟨hidle, -⟩ | ⟨-, r, rfl⟩ | ⟨-, rfl⟩ := step_effect h
  · cases hnow.symm.trans hrst
  · cases hb.symm.trans hbusy
  · exact absurd hidle hi
  · rw [tick_of_no_reset hr]; rfl
  · rw [tick_of_no_reset hr]; rfl

/-- R41, R110, R111: with the build over and no reset scheduled, a run changes RSP and the ports only. -/
theorem runSteps_onlyAnswered {k : Nat} {s t : State} (hb : s.busy = false) (hi : s.bs ≠ .idle) (hr : s.rstIn = [])
    (h : runSteps k s = .next t) : OnlyAnswered s t := by
  have hs : OnlyAnswered s s := rfl
  refine runSteps_keeps (fun u v hu huv => ?_) hs h
  rw [OnlyAnswered] at hu
  have hv : OnlyAnswered u v := step_onlyAnswered (hu ▸ hb) (hu ▸ hi) (hu ▸ hr) huv
  rw [OnlyAnswered, hu] at hv
  exact hv

/-- Settles O26: B_DONE is not BUSY and not B_IDLE. -/
theorem doneTablesNeverChange : Obligations.DoneTablesNeverChange := by
  intro k s t hr hbs h
  exact runSteps_onlyAnswered (by simp [hbs, Phase.busy]) (by simp [hbs]) hr h

/-! ## The BUILD step of each phase (40_builder.md R102 to R108) -/

/-- R102: what B_EXP0 answers. -/
theorem buildExp0_eq_ok {s t : State} : buildExp0 s = .ok t ↔
    t = { s with exp := s.exp.write 0 1, i := 1, bs := .expgen } := by
  have hq : 0 < cells s.cfg .exp := Nat.two_pow_pos _
  simp only [buildExp0, bind_eq_ok, writeCell_eq_ok]
  constructor
  · rintro ⟨_, ⟨-, rfl⟩, ⟨⟩⟩; rfl
  · rintro rfl; exact ⟨_, ⟨hq, rfl⟩, rfl⟩

/-- R103: the state one iteration of the exp/log loop leaves, for the new power `v`. -/
def expGenNext (s : State) (v : Elem) : State :=
  { s with
    exp := s.exp.write s.i.toNat v
    log := s.log.write v.toNat s.i
    ordOk := ordAfter s.cfg s.i v s.ordOk
    i := if s.i.toNat = s.cfg.n then s.i else s.i + 1
    bs := if s.i.toNat = s.cfg.n then .logfix else .expgen }

/-- R103: what an iteration of the exp/log loop answers, and when it does not fault. -/
theorem buildExpGen_eq_ok {s t : State} : buildExpGen s = .ok t ↔
    s.i ≠ 0 ∧ s.i.toNat < s.cfg.q ∧ ∃ u, s.cell .exp (s.i.toNat - 1) = some u ∧
      t = expGenNext s (xtime s.cfg.width (effPoly s.cfg) u) := by
  by_cases hi : s.i = 0
  · simp [buildExpGen, hi]
  simp only [buildExpGen, hi, if_false, bind_eq_ok, readCell_eq_ok, writeCell_eq_ok, cells]
  constructor
  · rintro ⟨u, ⟨-, hu⟩, _, ⟨hq, rfl⟩, _, ⟨-, rfl⟩, ⟨⟩⟩
    exact ⟨hi, hq, u, hu, rfl⟩
  · rintro ⟨-, hq, u, hu, rfl⟩
    exact ⟨u, ⟨by omega, hu⟩, _, ⟨hq, rfl⟩, _, ⟨xtime_lt .., rfl⟩, rfl⟩

/-- R105: what B_LOGFIX answers, and when it does not fault. -/
theorem buildLogFix_eq_ok {s t : State} : buildLogFix s = .ok t ↔
    1 < s.cfg.q ∧ t = { s with log := s.log.write 1 0, bs := .check } := by
  simp only [buildLogFix, bind_eq_ok, writeCell_eq_ok]
  constructor
  · rintro ⟨_, ⟨hq, rfl⟩, ⟨⟩⟩; exact ⟨hq, rfl⟩
  · rintro ⟨hq, rfl⟩; exact ⟨_, ⟨hq, rfl⟩, rfl⟩

/-- R107: what B_CHECK answers. -/
theorem buildCheck_eq_ok {s t : State} : buildCheck s = .ok t ↔
    t = if s.ordOk then { s with a := 0, b := 0, bs := .fill } else { s with bs := .failed } := by
  unfold buildCheck
  split_ifs <;> simp [eq_comm]

/-- R108: what a step of the fill answers, and when it does not fault. -/
theorem buildFill_eq_ok {s t : State} : buildFill s = .ok t ↔
    pairAddr s.cfg s.a s.b < s.cfg.q * s.cfg.q ∧ ∃ m d, fillCells s s.a s.b = .ok (m, d) ∧
      t = nextPair { s with
        mul := s.mul.write (pairAddr s.cfg s.a s.b) m
        div := s.div.write (pairAddr s.cfg s.a s.b) d } := by
  simp only [buildFill, bind_eq_ok, writeCell_eq_ok, cells]
  constructor
  · rintro ⟨⟨m, d⟩, hmd, _, ⟨hq, rfl⟩, _, ⟨-, rfl⟩, ⟨⟩⟩
    exact ⟨hq, m, d, hmd, rfl⟩
  · rintro ⟨hq, m, d, hmd, rfl⟩
    exact ⟨(m, d), hmd, _, ⟨hq, rfl⟩, _, ⟨hq, rfl⟩, rfl⟩

/-- R108: the next pair, or the end of the fill, is not in B_IDLE. -/
theorem nextPair_bs_ne_idle {s : State} (h : s.bs ≠ .idle) : (nextPair s).bs ≠ .idle := by
  unfold nextPair
  split_ifs
  · exact h
  · exact h
  · simp

/-! ## INIT_FLAG (10_state.md R26) -/

/-- No BUILD step leads back to B_IDLE (R100). -/
theorem buildStep_bs_ne_idle {s t : State} (hb : s.busy = true) (h : buildStep s = .next t) : t.bs ≠ .idle := by
  cases hbs : s.bs <;> simp only [buildStep, hbs, finish_eq_next] at h
  case exp0 => simp [buildExp0_eq_ok.1 h]
  case expgen =>
    obtain ⟨-, -, u, -, rfl⟩ := buildExpGen_eq_ok.1 h
    simp only [expGenNext]
    split_ifs <;> decide
  case logfix => simp [(buildLogFix_eq_ok.1 h).2]
  case check => rw [buildCheck_eq_ok.1 h]; split_ifs <;> simp
  case fill =>
    obtain ⟨-, m, d, -, rfl⟩ := buildFill_eq_ok.1 h
    exact nextPair_bs_ne_idle (by simp [hbs])
  case idle | done | failed => simp [hbs, Phase.busy] at hb

/-- Settles O24: of the kinds of step only TRIGGER and reset write INIT_FLAG, and only they enter or leave B_IDLE. -/
theorem initFlagSaysABuildWasClaimed : Obligations.InitFlagSaysABuildWasClaimed := by
  intro s t h
  obtain ⟨hrst, rfl⟩ | ⟨hb, hbuild⟩ | ⟨hidle, rfl⟩ | ⟨-, r, rfl⟩ | ⟨-, rfl⟩ := step_effect h
  · simp [hrst]
  · have hflag : t.initFlag = s.initFlag := (buildStep_frame hbuild).initFlag
    have ht : (t.bs != .idle) = true := bne_iff_ne.2 (buildStep_bs_ne_idle (s := tick s) hb hbuild)
    have hs : (s.bs != .idle) = true := bne_iff_ne.2 (by rintro hs; simp [hs, Phase.busy] at hb)
    rw [hflag, hs, ht]
    simp_all
  · simp [hidle]
  · simp_all
  · simp_all

/-! ## The powers of x (40_builder.md R103, R106) -/

theorem config_n_succ (c : Config) : c.n + 1 = c.q := Nat.sub_add_cancel (Nat.two_pow_pos _)

/-- R2, R6: a legal block has at least 2 and at most 4096 elements. -/
theorem config_q_bounds {c : Config} (hl : c.legal = true) : 2 ≤ c.q ∧ c.q ≤ 4096 := by
  obtain ⟨h1, h12, -⟩ := (config_legal_iff c).1 hl
  exact ⟨Nat.pow_le_pow_right (n := 2) (by decide) h1, Nat.pow_le_pow_right (n := 2) (by decide) h12⟩

theorem xtime_zero (w : Nat) (p : Poly) : xtime w p 0 = 0 := by
  rw [xtime_of_not_reduced p (by simp)]
  simp [lowBits]

/-- A power is below Q. -/
theorem powX_lt {w : Nat} (hw : 1 ≤ w) (p : Poly) (i : Nat) : (powX w p i).toNat < 2 ^ w := by
  cases i with
  | zero => exact Nat.one_lt_two_pow (by omega)
  | succ i => exact xtime_lt ..

/-- Equal powers stay equal. -/
theorem powX_add_congr {w : Nat} {p : Poly} {i j : Nat} (h : powX w p i = powX w p j) (k : Nat) :
    powX w p (i + k) = powX w p (j + k) := by
  induction k with
  | zero => exact h
  | succ k ih => rw [← Nat.add_assoc, ← Nat.add_assoc, powX, powX, ih]

/-- Once a power is 0, so is every later one. -/
theorem powX_eq_zero_add {w : Nat} {p : Poly} {i : Nat} (h : powX w p i = 0) (k : Nat) : powX w p (i + k) = 0 := by
  induction k with
  | zero => exact h
  | succ k ih => rw [← Nat.add_assoc, powX, ih, xtime_zero]

section Valid

variable {c : Config} (hl : c.legal = true) (hv : configValid c = true)
include hv

/-- R106: x^N = 1. -/
theorem powX_n : powX c.width (effPoly c) c.n = 1 := ((validPoly_iff ..).1 hv).1

/-- R106: no earlier power of x is 1. -/
theorem powX_ne_one {i : Nat} (h1 : 1 ≤ i) (hi : i < c.n) : powX c.width (effPoly c) i ≠ 1 :=
  ((validPoly_iff ..).1 hv).2 i h1 hi

/-- No power up to N is 0, since x^N is not. -/
theorem powX_ne_zero {i : Nat} (hi : i ≤ c.n) : powX c.width (effPoly c) i ≠ 0 := by
  intro h
  have hn := powX_eq_zero_add h (c.n - i)
  rw [Nat.add_sub_cancel' hi, powX_n hv] at hn
  exact absurd hn (by decide)

/-- The first N powers of x differ: from two equal ones the same way to x^N = 1 would give an earlier 1. -/
theorem powX_injOn : Set.InjOn (powX c.width (effPoly c)) (Set.Iio c.n) := by
  have differ : ∀ i j, i < j → j < c.n → powX c.width (effPoly c) i ≠ powX c.width (effPoly c) j := by
    intro i j hij hj h
    have hone := powX_add_congr h (c.n - j)
    rw [Nat.add_sub_cancel' hj.le, powX_n hv] at hone
    exact powX_ne_one hv (by omega) (by omega) hone
  intro i hi j hj h
  rcases lt_trichotomy i j with hij | hij | hij
  · exact absurd h (differ i j hij hj)
  · exact hij
  · exact absurd h.symm (differ j i hij hi)

include hl

/-- R106: under a valid configuration every nonzero element is a power of x; N distinct powers fill the N places. -/
theorem exists_powX_eq {e : Elem} (he : e.toNat < c.q) (h0 : e ≠ 0) :
    ∃ i < c.n, powX c.width (effPoly c) i = e := by
  have hw : 1 ≤ c.width := ((config_legal_iff c).1 hl).1
  have maps : Set.MapsTo (fun i => (powX c.width (effPoly c) i).toNat) (Finset.range c.n) (Finset.Ico 1 c.q) := by
    intro i hi
    have hne : (powX c.width (effPoly c) i).toNat ≠ 0 := fun h =>
      powX_ne_zero hv (Finset.mem_range.1 hi).le (BitVec.eq_of_toNat_eq h)
    exact Finset.mem_Ico.2 ⟨Nat.one_le_iff_ne_zero.2 hne, powX_lt hw ..⟩
  have inj : Set.InjOn (fun i => (powX c.width (effPoly c) i).toNat) (Finset.range c.n) := fun i hi j hj h =>
    powX_injOn hv (Finset.mem_range.1 hi) (Finset.mem_range.1 hj) (BitVec.eq_of_toNat_eq h)
  have card : (Finset.Ico 1 c.q).card ≤ (Finset.range c.n).card := by
    rw [Nat.card_Ico, Finset.card_range, Config.n, Config.q]
  have hne : e.toNat ≠ 0 := fun h => h0 (BitVec.eq_of_toNat_eq h)
  obtain ⟨i, hi, h⟩ := Finset.surjOn_of_injOn_of_card_le _ maps inj card (Finset.mem_Ico.2 ⟨by omega, he⟩)
  exact ⟨i, Finset.mem_range.1 hi, BitVec.eq_of_toNat_eq h⟩

end Valid

/-! ## What the tables hold (40_builder.md R102 to R108) -/

theorem expCells_read (c : Config) (k i : Nat) :
    (expCells c k).read i = if i < k then some (powX c.width (effPoly c) i) else none :=
  Memory.read_range_map _ k i

theorem pairCells_read (c : Config) (f : Elem → Elem → Elem) (k x : Nat) :
    (pairCells c f k).read x =
      if x < k then some (f (BitVec.ofNat 12 (x / c.q)) (BitVec.ofNat 12 (x % c.q))) else none :=
  Memory.read_range_map (fun x => f (BitVec.ofNat 12 (x / c.q)) (BitVec.ofNat 12 (x % c.q))) k x

/-- The next cell of a table written in address order. -/
theorem Memory.write_range_map (f : Nat → Elem) (k : Nat) :
    Memory.write ((List.range k).map fun x => (x, f x)) k (f k) = (List.range (k + 1)).map fun x => (x, f x) := by
  rw [Memory.write_past (by simp), List.range_succ, List.map_append, List.map_singleton]

/-- R103: an iteration of the loop writes the next cell of EXP. -/
theorem expCells_write (c : Config) (k : Nat) :
    (expCells c k).write k (powX c.width (effPoly c) k) = expCells c (k + 1) :=
  Memory.write_range_map _ k

section Pairs

variable {c : Config} {a b : Elem}

theorem pairAddr_div (hb : b.toNat < c.q) : pairAddr c a b / c.q = a.toNat := by
  rw [pairAddr, Nat.add_comm, Nat.add_mul_div_right _ _ (by omega), Nat.div_eq_of_lt hb, Nat.zero_add]

theorem pairAddr_mod (hb : b.toNat < c.q) : pairAddr c a b % c.q = b.toNat := by
  rw [pairAddr, Nat.add_comm, Nat.add_mul_mod_self_right, Nat.mod_eq_of_lt hb]

/-- R59: the address of a pair of elements is inside MUL and DIV. -/
theorem pairAddr_lt (ha : a.toNat < c.q) (hb : b.toNat < c.q) : pairAddr c a b < c.q * c.q :=
  calc a.toNat * c.q + b.toNat
    _ < (a.toNat + 1) * c.q := by rw [Nat.succ_mul]; omega
    _ ≤ c.q * c.q := Nat.mul_le_mul_right _ ha

/-- R53: the cell of a pair, in a table whose cells include it. -/
theorem pairCells_read_pairAddr (f : Elem → Elem → Elem) {k : Nat} (hb : b.toNat < c.q) (hk : pairAddr c a b < k) :
    (pairCells c f k).read (pairAddr c a b) = some (f a b) := by
  simp only [pairCells_read, hk, if_true, pairAddr_div hb, pairAddr_mod hb, BitVec.ofNat_toNat, BitVec.setWidth_eq]

/-- R108: a step of the fill writes the next cell in row order. -/
theorem pairCells_write (f : Elem → Elem → Elem) (hb : b.toNat < c.q) :
    (pairCells c f (pairAddr c a b)).write (pairAddr c a b) (f a b) = pairCells c f (pairAddr c a b + 1) := by
  have h := Memory.write_range_map
    (fun x => f (BitVec.ofNat 12 (x / c.q)) (BitVec.ofNat 12 (x % c.q))) (pairAddr c a b)
  simp only [pairAddr_div hb, pairAddr_mod hb, BitVec.ofNat_toNat, BitVec.setWidth_eq] at h
  exact h

end Pairs

/-- R103: LOG holds the last exponent of each power the loop has reached. -/
theorem logAfter_read {c : Config} {i k : Nat} (h1 : 1 ≤ i) (hk : i ≤ k)
    (hlast : ∀ j, i < j → j ≤ k → powX c.width (effPoly c) j ≠ powX c.width (effPoly c) i) :
    (logAfter c k).read (powX c.width (effPoly c) i).toNat = some (BitVec.ofNat 12 i) := by
  induction k, hk using Nat.le_induction with
  | base =>
    obtain ⟨i, rfl⟩ := Nat.exists_eq_add_of_le' h1
    exact Memory.read_write_same ..
  | succ k hk ih =>
    have hne : powX c.width (effPoly c) i ≠ powX c.width (effPoly c) (k + 1) := (hlast _ (by omega) le_rfl).symm
    rw [logAfter, Memory.read_write_other _ fun h => hne (BitVec.eq_of_toNat_eq h)]
    exact ih fun j hj hjk => hlast j hj (by omega)

/-- R105, R170: in a finished LOG of a valid configuration, LOG[x^i] = i. -/
theorem logFixed_read_powX {c : Config} (hv : configValid c = true) {i : Nat} (hi : i < c.n) :
    (logFixed c).read (powX c.width (effPoly c) i).toNat = some (BitVec.ofNat 12 i) := by
  cases i with
  | zero => exact Memory.read_write_same ..
  | succ i =>
    have hne : powX c.width (effPoly c) (i + 1) ≠ 1 := powX_ne_one hv (by omega) hi
    have hne' : (powX c.width (effPoly c) (i + 1)).toNat ≠ 1 := fun h => hne (BitVec.eq_of_toNat_eq h)
    rw [logFixed, Memory.read_write_other _ hne']
    refine logAfter_read (by omega) hi.le fun j hj hjn h => ?_
    rcases hjn.eq_or_lt with rfl | hjn
    · exact hne (h.symm.trans (powX_n hv))
    · exact hj.ne (powX_injOn hv hi hjn h.symm)

/-- R60: a finished LOG of a valid configuration has a value for every nonzero element. -/
theorem logFixed_read {c : Config} (hl : c.legal = true) (hv : configValid c = true) {e : Elem}
    (he : e.toNat < c.q) (h0 : e ≠ 0) : (logFixed c).read e.toNat = some (logOf c e) := by
  obtain ⟨i, hi, rfl⟩ := exists_powX_eq hl hv he h0
  rw [logOf, logFixed_read_powX hv hi, Option.getD_some]

/-- R108: with EXP and LOG finished, a step of the fill reads the cells that MUL and DIV are to hold. -/
theorem fillCells_eq {s : State} {a b : Elem} (hl : s.cfg.legal = true) (hv : configValid s.cfg = true)
    (hexp : s.exp = expCells s.cfg s.cfg.q) (hlog : s.log = logFixed s.cfg)
    (ha : a.toNat < s.cfg.q) (hb : b.toNat < s.cfg.q) :
    fillCells s a b = .ok (mulWanted s.cfg a b, divWanted s.cfg a b) := by
  by_cases h0 : a = 0 ∨ b = 0
  · simp only [fillCells, mulWanted, divWanted, h0, if_true]
  obtain ⟨ha0, hb0⟩ := not_or.1 h0
  have readLog : ∀ e : Elem, e.toNat < s.cfg.q → e ≠ 0 → s.readCell .log e.toNat = .ok (logOf s.cfg e) := by
    intro e he he0
    refine readCell_eq_ok.2 ⟨he, ?_⟩
    rw [State.cell, State.table, hlog, logFixed_read hl hv he he0]
  have readExp : ∀ k, s.readCell .exp (k % s.cfg.n) = .ok (powX s.cfg.width (effPoly s.cfg) (k % s.cfg.n)) := by
    intro k
    have hk : k % s.cfg.n < s.cfg.q := by
      have hq := (config_q_bounds hl).1
      have hn := config_n_succ s.cfg
      have := Nat.mod_lt k (show 0 < s.cfg.n by omega)
      omega
    refine readCell_eq_ok.2 ⟨hk, ?_⟩
    rw [State.cell, State.table, hexp, expCells_read, if_pos hk]
  simp only [fillCells, h0, if_false, readLog a ha ha0, readLog b hb hb0, mulExponent, divExponent, readExp,
    mulWanted, divWanted]
  rfl

/-! ## The invariant (10_state.md sections 2, 3 and 5) -/

/-- Settles O11: R40, read off `State.resetOf`. -/
theorem resetStateValues : Obligations.ResetStateValues := by
  refine ⟨fun c => ⟨fun sp k => ?_, rfl, rfl, rfl, rfl, rfl, rfl, rfl, rfl, rfl, rfl, rfl, rfl⟩, rfl, by decide⟩
  cases sp <;> rfl

/-- Settles O42: in B_IDLE the invariant asks for empty tables, which reset leaves. -/
theorem resetMeetsTheInvariant : Obligations.ResetMeetsTheInvariant := by
  intro c cmds rst out hl
  exact {
    legal := hl
    initFlag := rfl
    index_i := Nat.zero_le _
    index_a := Nat.zero_le _
    index_b := Nat.zero_le _
    expgen_from_one := by simp [State.resetOf]
    exp := rfl
    log := rfl
    mul := rfl
    div := rfl
    ordOk := rfl
    valid_if_filling := by simp [State.resetOf]
    invalid_if_failed := by simp [State.resetOf] }

/-- Reset establishes the invariant (R40, R230). -/
theorem inv_applyReset {s : State} (hl : s.cfg.legal = true) : Inv (applyReset s) :=
  resetMeetsTheInvariant s.cfg s.cmds s.rstIn.tail s.emitted hl

theorem Inv.tick {s : State} (h : Inv s) : Inv (tick s) :=
  h.env s.rsp s.cmds (Machine.tick s).rstIn s.emitted

/-- What the tables and ORD_OK hold, in the phase the builder is in. -/
theorem Inv.contents {s : State} (h : Inv s) :
    s.exp = expInPhase s ∧ s.log = logInPhase s ∧ s.mul = pairCells s.cfg (mulWanted s.cfg) (filled s) ∧
      s.div = pairCells s.cfg (divWanted s.cfg) (filled s) ∧ s.ordOk = ordInPhase s :=
  ⟨h.exp, h.log, h.mul, h.div, h.ordOk⟩

/-- R26: outside B_IDLE a build has been claimed. -/
theorem Inv.initFlag_of_claimed {s : State} (h : Inv s) (hbs : s.bs ≠ .idle) : s.initFlag = true :=
  h.initFlag.trans (bne_iff_ne.2 hbs)

/-- TRIGGER keeps the invariant (R101). -/
theorem Inv.trigger {s : State} (h : Inv s) (hbs : s.bs = .idle) : Inv (trigger s) := by
  have contents := h.contents
  simp only [expInPhase, logInPhase, filled, hbs] at contents
  obtain ⟨hexp, hlog, hmul, hdiv, -⟩ := contents
  exact { h with
    initFlag := rfl
    expgen_from_one := by simp
    exp := hexp
    log := hlog
    mul := hmul
    div := hdiv
    ordOk := rfl
    valid_if_filling := by simp
    invalid_if_failed := by simp }

/-- B_EXP0 keeps the invariant (R102). -/
theorem Inv.exp0_next {s : State} (h : Inv s) (hbs : s.bs = .exp0) :
    Inv { s with exp := s.exp.write 0 1, i := 1, bs := .expgen } := by
  have contents := h.contents
  simp only [expInPhase, logInPhase, filled, ordInPhase, hbs] at contents
  obtain ⟨hexp, hlog, hmul, hdiv, hord⟩ := contents
  have hq := (config_q_bounds h.legal).1
  have hn := config_n_succ s.cfg
  exact { h with
    initFlag := h.initFlag_of_claimed (by simp [hbs])
    index_i := show 1 ≤ s.cfg.n by omega
    expgen_from_one := fun _ => le_rfl
    exp := by rw [hexp]; rfl
    log := hlog
    mul := hmul
    div := hdiv
    ordOk := hord
    valid_if_filling := by simp
    invalid_if_failed := by simp }

theorem noEarlyOne_succ {w k : Nat} (p : Poly) (hk : 1 ≤ k) :
    noEarlyOne w p (k + 1) = (noEarlyOne w p k && powX w p k != 1) := by
  have hk0 : (k == 0) = false := beq_eq_false_iff_ne.2 (by omega)
  simp only [noEarlyOne, List.range_succ, List.all_append, List.all_cons, List.all_nil, hk0, Bool.false_or,
    Bool.and_true]

/-- R103: before the last iteration ORD_OK becomes false at an early 1. -/
theorem ordAfter_before_n {c : Config} {i : Elem} (h1 : 1 ≤ i.toNat) (hi : i.toNat ≠ c.n) :
    ordAfter c i (powX c.width (effPoly c) i.toNat) (noEarlyOne c.width (effPoly c) i.toNat) =
      noEarlyOne c.width (effPoly c) (i.toNat + 1) := by
  rw [noEarlyOne_succ _ h1]
  by_cases hv : powX c.width (effPoly c) i.toNat = 1#12 <;> simp [ordAfter, hi, hv]

/-- R103, R106: after the last iteration ORD_OK is VALID. -/
theorem ordAfter_n {c : Config} {i : Elem} (hi : i.toNat = c.n) :
    ordAfter c i (powX c.width (effPoly c) i.toNat) (noEarlyOne c.width (effPoly c) i.toNat) = configValid c := by
  rw [configValid, validPoly, ← Config.n, hi]
  by_cases hv : powX c.width (effPoly c) c.n = 1#12 <;> simp [ordAfter, hi, hv]

/-- R35, R184: an index register below N does not wrap. -/
theorem toNat_add_one {c : Config} (hl : c.legal = true) {x : Elem} (hx : x.toNat < c.n) :
    (x + 1).toNat = x.toNat + 1 := by
  have hq := (config_q_bounds hl).2
  have hn := config_n_succ c
  rw [BitVec.toNat_add]
  exact Nat.mod_eq_of_lt (show x.toNat + 1 < 2 ^ 12 by omega)

/-- An iteration of the exp/log loop keeps the invariant (R103): it extends EXP and LOG by the power of index I. -/
theorem Inv.expgen_next {s : State} (h : Inv s) (hbs : s.bs = .expgen) :
    Inv (expGenNext s (powX s.cfg.width (effPoly s.cfg) s.i.toNat)) := by
  have contents := h.contents
  simp only [expInPhase, logInPhase, filled, ordInPhase, hbs] at contents
  obtain ⟨hexp, hlog, hmul, hdiv, hord⟩ := contents
  have h1 : 1 ≤ s.i.toNat := h.expgen_from_one hbs
  have hexp' : s.exp.write s.i.toNat (powX s.cfg.width (effPoly s.cfg) s.i.toNat) =
      expCells s.cfg (s.i.toNat + 1) := by rw [hexp, expCells_write]
  have hlog' : s.log.write (powX s.cfg.width (effPoly s.cfg) s.i.toNat).toNat s.i = logAfter s.cfg s.i.toNat := by
    obtain ⟨k, hk⟩ := Nat.exists_eq_add_of_le' h1
    rw [hlog, hk, Nat.add_sub_cancel, logAfter, ← hk, BitVec.ofNat_toNat, BitVec.setWidth_eq]
  have hflag : s.initFlag = true := h.initFlag_of_claimed (by simp [hbs])
  by_cases hi : s.i.toNat = s.cfg.n
  · simp only [expGenNext, hexp', hlog', hord, ordAfter_n hi, if_pos hi]
    exact { h with
      initFlag := hflag
      expgen_from_one := by simp
      exp := by rw [hi, config_n_succ]; rfl
      log := by rw [hi]; rfl
      mul := hmul
      div := hdiv
      ordOk := rfl
      valid_if_filling := by simp
      invalid_if_failed := by simp }
  · have hlt : s.i.toNat < s.cfg.n := lt_of_le_of_ne h.index_i hi
    have hi1 := toNat_add_one h.legal hlt
    simp only [expGenNext, hexp', hlog', hord, ordAfter_before_n h1 hi, if_neg hi]
    exact { h with
      initFlag := hflag
      index_i := show (s.i + 1).toNat ≤ s.cfg.n by omega
      expgen_from_one := fun _ => show 1 ≤ (s.i + 1).toNat by omega
      exp := by simp only [expInPhase, hi1]
      log := by simp only [logInPhase, hi1, Nat.add_sub_cancel]
      mul := hmul
      div := hdiv
      ordOk := by simp only [ordInPhase, hi1]
      valid_if_filling := by simp
      invalid_if_failed := by simp }

/-- B_LOGFIX keeps the invariant (R105). -/
theorem Inv.logfix_next {s : State} (h : Inv s) (hbs : s.bs = .logfix) :
    Inv { s with log := s.log.write 1 0, bs := .check } := by
  have contents := h.contents
  simp only [expInPhase, logInPhase, filled, ordInPhase, hbs] at contents
  obtain ⟨hexp, hlog, hmul, hdiv, hord⟩ := contents
  exact { h with
    initFlag := h.initFlag_of_claimed (by simp [hbs])
    expgen_from_one := by simp
    exp := hexp
    log := by rw [hlog]; rfl
    mul := hmul
    div := hdiv
    ordOk := hord
    valid_if_filling := by simp
    invalid_if_failed := by simp }

/-- B_CHECK keeps the invariant (R107): ORD_OK is VALID there. -/
theorem Inv.check_next {s : State} (h : Inv s) (hbs : s.bs = .check) :
    Inv (if s.ordOk then { s with a := 0, b := 0, bs := .fill } else { s with bs := .failed }) := by
  have contents := h.contents
  simp only [expInPhase, logInPhase, filled, ordInPhase, hbs] at contents
  obtain ⟨hexp, hlog, hmul, hdiv, hord⟩ := contents
  split_ifs with hok
  · have first : pairAddr s.cfg 0 0 = 0 := by simp [pairAddr]
    exact { h with
      initFlag := h.initFlag_of_claimed (by simp [hbs])
      index_a := Nat.zero_le _
      index_b := Nat.zero_le _
      expgen_from_one := by simp
      exp := hexp
      log := hlog
      mul := by simp only [filled, first]; exact hmul
      div := by simp only [filled, first]; exact hdiv
      ordOk := hord
      valid_if_filling := fun _ => hord.symm.trans hok
      invalid_if_failed := by simp }
  · exact { h with
      initFlag := h.initFlag_of_claimed (by simp [hbs])
      expgen_from_one := by simp
      exp := hexp
      log := hlog
      mul := hmul
      div := hdiv
      ordOk := hord
      valid_if_filling := by simp
      invalid_if_failed := fun _ => hord.symm.trans (by simpa using hok) }

/-- The fill between two steps: MUL and DIV hold the pairs before (A, B) in row order (R108). -/
theorem Inv.fill_continues {s : State} (h : Inv s) (hbs : s.bs = .fill) {a b : Elem} (ha : a.toNat ≤ s.cfg.n)
    (hb : b.toNat ≤ s.cfg.n) :
    Inv { s with
      mul := pairCells s.cfg (mulWanted s.cfg) (pairAddr s.cfg a b)
      div := pairCells s.cfg (divWanted s.cfg) (pairAddr s.cfg a b)
      a := a
      b := b } :=
  { h with
    index_a := ha
    index_b := hb
    exp := h.exp.trans (by simp only [expInPhase, hbs])
    log := h.log.trans (by simp only [logInPhase, hbs])
    mul := by simp only [filled, hbs]
    div := by simp only [filled, hbs]
    ordOk := h.ordOk.trans (by simp only [ordInPhase, hbs]) }

/-- A step of the fill keeps the invariant (R108): it extends MUL and DIV by the pair (A, B). -/
theorem Inv.fill_next {s : State} (h : Inv s) (hbs : s.bs = .fill) :
    Inv (nextPair { s with
      mul := s.mul.write (pairAddr s.cfg s.a s.b) (mulWanted s.cfg s.a s.b)
      div := s.div.write (pairAddr s.cfg s.a s.b) (divWanted s.cfg s.a s.b) }) := by
  have contents := h.contents
  simp only [expInPhase, logInPhase, filled, ordInPhase, hbs] at contents
  obtain ⟨hexp, hlog, hmul, hdiv, hord⟩ := contents
  have hn := config_n_succ s.cfg
  have hb : s.b.toNat < s.cfg.q := by have := h.index_b; omega
  rw [hmul, hdiv, pairCells_write _ hb, pairCells_write _ hb]
  simp only [nextPair]
  split_ifs with hbn han
  · have hlt := lt_of_le_of_ne h.index_b hbn
    have hb1 := toNat_add_one h.legal hlt
    have next : pairAddr s.cfg s.a s.b + 1 = pairAddr s.cfg s.a (s.b + 1) := by simp only [pairAddr, hb1]; omega
    rw [next]
    exact h.fill_continues hbs h.index_a (hb1.trans_le hlt)
  · have hlt := lt_of_le_of_ne h.index_a han
    have ha1 := toNat_add_one h.legal hlt
    have next : pairAddr s.cfg s.a s.b + 1 = pairAddr s.cfg (s.a + 1) 0 := by
      simp only [pairAddr, ha1, not_not.1 hbn, Nat.succ_mul, ← hn]
      rfl
    rw [next]
    exact h.fill_continues hbs (ha1.trans_le hlt) (Nat.zero_le _)
  · have last : pairAddr s.cfg s.a s.b + 1 = s.cfg.q * s.cfg.q := by
      rw [pairAddr, not_not.1 hbn, not_not.1 han, Nat.add_assoc, hn, ← Nat.succ_mul, Nat.succ_eq_add_one, hn]
    rw [last]
    exact { h with
      initFlag := h.initFlag_of_claimed (by simp [hbs])
      expgen_from_one := by simp
      exp := hexp
      log := hlog
      mul := rfl
      div := rfl
      ordOk := hord
      valid_if_filling := fun _ => h.valid_if_filling (.inl hbs)
      invalid_if_failed := by simp }

/-- From a state of the invariant a BUILD step does not fault, and it keeps the invariant. -/
theorem Inv.buildStep {s : State} (h : Inv s) (hb : s.busy = true) : ∃ t, buildStep s = .next t ∧ Inv t := by
  have hq := (config_q_bounds h.legal).1
  have hn := config_n_succ s.cfg
  cases hbs : s.bs <;> simp only [Machine.buildStep, hbs, finish_eq_next]
  case exp0 => exact ⟨_, buildExp0_eq_ok.2 rfl, h.exp0_next hbs⟩
  case expgen =>
    obtain ⟨k, hk⟩ := Nat.exists_eq_add_of_le' (h.expgen_from_one hbs)
    have hi : s.i ≠ 0 := fun h0 => by simp [h0] at hk
    have hlt : s.i.toNat < s.cfg.q := by have := h.index_i; omega
    have hcell : s.cell .exp (s.i.toNat - 1) = some (powX s.cfg.width (effPoly s.cfg) k) := by
      simp [State.cell, State.table, h.exp, expInPhase, hbs, expCells_read, hk]
    have hpow : powX s.cfg.width (effPoly s.cfg) s.i.toNat =
      xtime s.cfg.width (effPoly s.cfg) (powX s.cfg.width (effPoly s.cfg) k) := by rw [hk, powX]
    exact ⟨_, buildExpGen_eq_ok.2 ⟨hi, hlt, _, hcell, rfl⟩, hpow ▸ h.expgen_next hbs⟩
  case logfix => exact ⟨_, buildLogFix_eq_ok.2 ⟨hq, rfl⟩, h.logfix_next hbs⟩
  case check => exact ⟨_, buildCheck_eq_ok.2 rfl, h.check_next hbs⟩
  case fill =>
    have ha : s.a.toNat < s.cfg.q := by have := h.index_a; omega
    have hb : s.b.toNat < s.cfg.q := by have := h.index_b; omega
    have hexp : s.exp = expCells s.cfg s.cfg.q := by simp only [h.exp, expInPhase, hbs]
    have hlog : s.log = logFixed s.cfg := by simp only [h.log, logInPhase, hbs]
    have hcells := fillCells_eq h.legal (h.valid_if_filling (.inl hbs)) hexp hlog ha hb
    exact ⟨_, buildFill_eq_ok.2 ⟨pairAddr_lt ha hb, _, _, hcells, rfl⟩, h.fill_next hbs⟩
  case idle | done | failed => simp [hbs, Phase.busy] at hb

/-- Settles O43: of the five kinds of step, reset establishes the invariant, and every other keeps it. -/
theorem stepKeepsTheInvariant : Obligations.StepKeepsTheInvariant := by
  intro s t h hstep
  obtain ⟨-, rfl⟩ | ⟨hb, hbuild⟩ | ⟨hidle, rfl⟩ | ⟨-, r, rfl⟩ | ⟨-, rfl⟩ := step_effect hstep
  · exact inv_applyReset h.legal
  · obtain ⟨u, hu, hinv⟩ := h.tick.buildStep hb
    cases hu.symm.trans hbuild
    exact hinv
  · exact h.tick.trigger hidle
  · exact h.tick.answered r
  · exact h.tick

/-! ## What a command reads in B_DONE (41_field_ops.md R130, 20_memory.md R59) -/

section Done

variable {s : State} (h : Inv s) (hbs : s.bs = .done)
include h hbs

theorem Inv.expCell_done {k : Nat} (hk : k < s.cfg.q) : s.cell .exp k = some (powX s.cfg.width (effPoly s.cfg) k) := by
  simp only [State.cell, State.table, h.exp, expInPhase, hbs, expCells_read, hk, if_true]

theorem Inv.logCell_done {e : Elem} (he : e.toNat < s.cfg.q) (h0 : e ≠ 0) :
    s.cell .log e.toNat = some (logOf s.cfg e) := by
  simp only [State.cell, State.table, h.log, logInPhase, hbs,
    logFixed_read h.legal (h.valid_if_filling (.inr hbs)) he h0]

theorem Inv.mulCell_done {a b : Elem} (ha : a.toNat < s.cfg.q) (hb : b.toNat < s.cfg.q) :
    s.cell .mul (pairAddr s.cfg a b) = some (mulWanted s.cfg a b) := by
  simp only [State.cell, State.table, h.mul, filled, hbs, pairCells_read_pairAddr _ hb (pairAddr_lt ha hb)]

theorem Inv.divCell_done {a b : Elem} (ha : a.toNat < s.cfg.q) (hb : b.toNat < s.cfg.q) :
    s.cell .div (pairAddr s.cfg a b) = some (divWanted s.cfg a b) := by
  simp only [State.cell, State.table, h.div, filled, hbs, pairCells_read_pairAddr _ hb (pairAddr_lt ha hb)]

end Done

/-- The prologue answers a next state when the run does, in a ready state with every operand in range (R130). -/
theorem command_total {s : State} {ops : List Elem} {run : State → Result} (hl : s.cfg.legal = true)
    (hrun : s.busy = false → (∀ x ∈ ops, x.toNat < s.cfg.q) → ∃ t, run s = .next t) :
    ∃ t, command ops run s = .next t := by
  cases hb : s.busy with
  | true => exact ⟨_, command_held run hl hb⟩
  | false =>
    cases ho : ops.all (operandInRange s.cfg) with
    | true =>
      rw [command_runs run ⟨hl, hb⟩ ho]
      exact hrun hb (by simpa [operandInRange_eq] using ho)
    | false => exact ⟨_, command_range run ⟨hl, hb⟩ ho⟩

/-- A TABLE command runs in B_DONE only (R92). -/
theorem tableCommand_total {s : State} {ops : List Elem} {run : State → Result} (hl : s.cfg.legal = true)
    (hrun : s.bs = .done → (∀ x ∈ ops, x.toNat < s.cfg.q) → ∃ t, run s = .next t) :
    ∃ t, tableCommand ops run s = .next t := by
  refine command_total hl fun hb hops => ?_
  split
  next => exact ⟨_, rfl⟩
  next => exact ⟨_, rfl⟩
  next hidle hfailed =>
    refine hrun ?_ hops
    cases hbs : s.bs <;> simp_all [Phase.busy]

/-- From a state of the invariant no command faults or is refused. -/
theorem Inv.exec_total {s : State} (h : Inv s) (i : Instr) : ∃ t, exec i s = .next t := by
  have hq := (config_q_bounds h.legal).1
  have answers {ops : List Elem} (v : Elem) : ∃ t, command ops (answer v) s = .next t :=
    command_total h.legal fun _ _ => ⟨_, rfl⟩
  cases i with
  | construct v => exact tableCommand_total h.legal fun _ _ => ⟨_, rfl⟩
  | mul a b =>
    refine tableCommand_total h.legal fun hbs hops => ?_
    have ha := hops a (by simp)
    have hb := hops b (by simp)
    exact ⟨_, answerCell_eq _ (pairAddr_lt ha hb) (h.mulCell_done hbs ha hb)⟩
  | div a b =>
    refine tableCommand_total h.legal fun hbs hops => ?_
    have ha := hops a (by simp)
    have hb := hops b (by simp)
    exact ⟨_, answerCell_eq _ (pairAddr_lt ha hb) (h.divCell_done hbs ha hb)⟩
  | inv a =>
    refine tableCommand_total h.legal fun hbs hops => ?_
    have ha := hops a (by simp)
    exact ⟨_, answerCell_eq _ (pairAddr_lt hq ha) (h.divCell_done hbs hq ha)⟩
  | exp k =>
    refine tableCommand_total h.legal fun hbs hops => ?_
    have hk := hops k (by simp)
    exact ⟨_, answerCell_eq _ hk (h.expCell_done hbs hk)⟩
  | log e =>
    simp only [exec, execLog]
    refine tableCommand_total h.legal fun hbs hops => ?_
    have he := hops e (by simp)
    split_ifs with h0
    · exact ⟨_, rfl⟩
    · exact ⟨_, answerCell_eq _ he (h.logCell_done hbs he h0)⟩
  | add a b | sub a b | neg a | width | maxval | status => exact answers _

/-- Settles O44: BUILD steps and commands do not fault from a state of the invariant. -/
theorem noStepStops : Obligations.NoStepStops := by
  intro s h
  cases hr : s.rstNow with
  | true => exact ⟨_, by rw [step, if_pos h.legal, if_pos hr]⟩
  | false =>
    have running : Running s := ⟨h.legal, hr⟩
    cases hb : s.busy with
    | true =>
      obtain ⟨t, ht, -⟩ := h.tick.buildStep hb
      exact ⟨t, (step_busy running hb).trans ht⟩
    | false =>
      cases hp : s.port with
      | none => exact ⟨_, step_waits running hb hp⟩
      | some w =>
        rw [step_word running hb hp]
        cases hd : decode w with
        | error e => exact ⟨_, execWord_error _ hd⟩
        | ok i =>
          rw [execWord_ok _ hd]
          exact h.tick.exec_total i

end Sys2Proof.Machine
end

section
/-! PROOFS. The memory (20_memory.md): the phases a build goes through, the canonical form of the tables, and what
commands read of them before B_DONE and in it. -/

namespace Sys2Proof.Machine

/-! ## At most one build (20_memory.md R62) -/

/-- R100: the phases a BUILD step can end in, from each phase; none is enabled in B_IDLE, B_DONE and B_FAILED. -/
def Phase.successors : Phase → List Phase
  | .exp0 => [.expgen]
  | .expgen => [.expgen, .logfix]
  | .logfix => [.check]
  | .check => [.fill, .failed]
  | .fill => [.fill, .done]
  | .idle => [.idle]
  | .done => [.done]
  | .failed => [.failed]

/-- R108: the fill goes on with the next pair, and after the last pair comes B_DONE. -/
theorem nextPair_bs_mem_successors {s : State} (hbs : s.bs = .fill) : (nextPair s).bs ∈ Phase.fill.successors := by
  unfold nextPair
  split_ifs <;> simp [hbs, Phase.successors]

/-- A BUILD step ends in a phase that R100 lists for it. -/
theorem buildStep_bs_mem_successors {s t : State} (h : buildStep s = .next t) : t.bs ∈ s.bs.successors := by
  cases hbs : s.bs <;> simp only [buildStep, hbs, finish_eq_next] at h
  case exp0 => simp [buildExp0_eq_ok.1 h, Phase.successors]
  case expgen =>
    obtain ⟨-, -, u, -, rfl⟩ := buildExpGen_eq_ok.1 h
    simp only [expGenNext]
    split_ifs <;> decide
  case logfix => simp [(buildLogFix_eq_ok.1 h).2, Phase.successors]
  case check => rw [buildCheck_eq_ok.1 h]; split_ifs <;> simp [Phase.successors]
  case fill =>
    obtain ⟨-, m, d, -, rfl⟩ := buildFill_eq_ok.1 h
    exact nextPair_bs_mem_successors hbs
  case idle | done | failed => cases h; simp [hbs, Phase.successors]

theorem Phase.exp0_notMem_successors (p : Phase) : .exp0 ∉ p.successors := by
  cases p <;> decide

/-- R101: only TRIGGER leads to B_EXP0, and it starts in B_IDLE. -/
theorem idle_of_step_exp0 {s t : State} (h : step s = .next t) (ht : t.bs = .exp0) : s.bs = .idle := by
  obtain ⟨-, rfl⟩ | ⟨-, hbuild⟩ | ⟨hidle, -⟩ | ⟨hb, r, rfl⟩ | ⟨hb, rfl⟩ := step_effect h
  · cases ht
  · exact absurd (ht ▸ buildStep_bs_mem_successors hbuild) (Phase.exp0_notMem_successors _)
  · exact hidle
  · simp [show s.bs = .exp0 from ht, Phase.busy] at hb
  · simp [show s.bs = .exp0 from ht, Phase.busy] at hb

/-- With no reset scheduled, no step leads back to B_IDLE, and none schedules a reset. -/
theorem step_stays_claimed {s t : State} (hs : s.rstIn = [] ∧ s.bs ≠ .idle) (h : step s = .next t) :
    t.rstIn = [] ∧ t.bs ≠ .idle := by
  obtain ⟨hr, hne⟩ := hs
  have htick := tick_of_no_reset hr
  obtain ⟨hnow, -⟩ | ⟨hb, hbuild⟩ | ⟨hidle, -⟩ | ⟨-, r, rfl⟩ | ⟨-, rfl⟩ := step_effect h
  · simp [State.rstNow, hr] at hnow
  · rw [htick] at hbuild
    exact ⟨(buildStep_frame hbuild).rstIn.trans hr, buildStep_bs_ne_idle hb hbuild⟩
  · exact absurd hidle hne
  · rw [htick]; exact ⟨hr, hne⟩
  · rw [htick]; exact ⟨hr, hne⟩

/-- Settles O25: a claimed build stays claimed along a run without a reset, and only TRIGGER leads to B_EXP0. -/
theorem atMostOneBuild : Obligations.AtMostOneBuild := by
  refine ⟨fun k s t hr hne h => ?_, fun s t h ht => idle_of_step_exp0 h ht⟩
  obtain ⟨-, hne'⟩ := runSteps_keeps (P := fun u => u.rstIn = [] ∧ u.bs ≠ .idle)
    (fun _ _ => step_stays_claimed) ⟨hr, hne⟩ h
  exact hne'

/-! ## No table is read before B_DONE (20_memory.md R67) -/

/-- The run of LOG, where UNDEF is decided last (R152). -/
def logRun (e : Elem) (s : State) : Result :=
  if e = 0 then .next (respond .undef false 0 s) else answerCell .log e.toNat false s

theorem exec_log (e : Elem) (s : State) : exec (.log e) s = tableCommand [e] (logRun e) s := rfl

/-- The state with other contents of the four tables. -/
def State.withTables (s : State) (e l m d : Memory) : State := { s with exp := e, log := l, mul := m, div := d }

section Tables

variable {s t : State} {ops : List Elem} {run run' : State → Result} (e l m d : Memory)

/-- The prologue reads no table (R130): it carries the independence of the tables from the run to the command. -/
theorem command_withTables
    (hrun : s.busy = false → run s = .next t → run' (s.withTables e l m d) = .next (t.withTables e l m d))
    (h : command ops run s = .next t) :
    command ops run' (s.withTables e l m d) = .next (t.withTables e l m d) := by
  obtain ⟨hl, ⟨hb, rfl⟩ | ⟨hb, hops, rfl⟩ | ⟨hb, hops, h⟩⟩ := command_next h
  · exact command_held run' hl hb
  · exact command_range run' ⟨hl, hb⟩ hops
  · exact (command_runs (s := s.withTables e l m d) run' ⟨hl, hb⟩ hops).trans (hrun hb h)

/-- The answer of a command that reads no table. -/
theorem command_answer_withTables {v : Elem} (h : command ops (answer v) s = .next t) :
    command ops (answer v) (s.withTables e l m d) = .next (t.withTables e l m d) := by
  refine command_withTables e l m d (fun _ h => ?_) h
  cases h
  rfl

/-- Before B_DONE a TABLE command is held, triggers the build or is answered BADCFG (R92), whatever its run would
read. -/
theorem tableCommand_withTables (hbs : s.bs ≠ .done) (h : tableCommand ops run s = .next t) :
    tableCommand ops run' (s.withTables e l m d) = .next (t.withTables e l m d) := by
  refine command_withTables e l m d (fun hb h => ?_) h
  have hbs' : (s.withTables e l m d).bs = s.bs := rfl
  rw [hbs']
  cases hphase : s.bs <;> simp only [hphase] at h
  case idle | failed => cases h; rfl
  case done => exact absurd hphase hbs
  case exp0 | expgen | logfix | check | fill => simp [hphase, Phase.busy] at hb

end Tables

/-- Settles O28: a TABLE command does not come to its run before B_DONE, and a PURE command reads no table. -/
theorem noTableReadBeforeDone : Obligations.NoTableReadBeforeDone := by
  intro i s t e l m d hbs h
  cases i with
  | construct | mul | div | inv | exp => exact tableCommand_withTables e l m d hbs h
  | log =>
    rw [exec_log] at h ⊢
    exact tableCommand_withTables e l m d hbs h
  | add | sub | neg | width | maxval | status => exact command_answer_withTables e l m d h

/-! ## The canonical form of the tables (20_memory.md R50, R53; 10_state.md R25) -/

/-- A BUILD step writes cells, and a write keeps the canonical form. -/
theorem buildStep_tablesCanonical {s t : State} (hs : TablesCanonical s) (h : buildStep s = .next t) :
    TablesCanonical t := by
  obtain ⟨hexp, hlog, hmul, hdiv⟩ := hs
  cases hbs : s.bs <;> simp only [buildStep, hbs, finish_eq_next] at h
  case exp0 =>
    rw [buildExp0_eq_ok.1 h]
    exact ⟨Memory.write_wf hexp .., hlog, hmul, hdiv⟩
  case expgen =>
    obtain ⟨-, -, u, -, rfl⟩ := buildExpGen_eq_ok.1 h
    exact ⟨Memory.write_wf hexp .., Memory.write_wf hlog .., hmul, hdiv⟩
  case logfix =>
    rw [(buildLogFix_eq_ok.1 h).2]
    exact ⟨hexp, Memory.write_wf hlog .., hmul, hdiv⟩
  case check =>
    rw [buildCheck_eq_ok.1 h]
    split_ifs <;> exact ⟨hexp, hlog, hmul, hdiv⟩
  case fill =>
    obtain ⟨-, m, d, -, rfl⟩ := buildFill_eq_ok.1 h
    unfold nextPair
    split_ifs <;> exact ⟨hexp, hlog, Memory.write_wf hmul .., Memory.write_wf hdiv ..⟩
  case idle | done | failed => cases h; exact ⟨hexp, hlog, hmul, hdiv⟩

/-- Reset empties every table (R40). -/
theorem resetOf_tablesCanonical (c : Config) : TablesCanonical (State.resetOf c) :=
  ⟨Memory.nil_wf, Memory.nil_wf, Memory.nil_wf, Memory.nil_wf⟩

theorem step_tablesCanonical {s t : State} (hs : TablesCanonical s) (h : step s = .next t) : TablesCanonical t := by
  obtain ⟨-, rfl⟩ | ⟨-, hbuild⟩ | ⟨-, rfl⟩ | ⟨-, r, rfl⟩ | ⟨-, rfl⟩ := step_effect h
  · exact resetOf_tablesCanonical s.cfg
  · exact buildStep_tablesCanonical (s := tick s) hs hbuild
  · exact hs
  · exact hs
  · exact hs

/-- A table written in address order from 0 is in canonical form. -/
theorem Memory.range_map_wf (f : Nat → Elem) (k : Nat) : Memory.wf ((List.range k).map fun x => (x, f x)) := by
  have keys : ((List.range k).map fun x => (x, f x)).map Prod.fst = List.range k := by
    rw [List.map_map]
    exact List.map_id _
  rw [Memory.wf, keys]
  exact List.pairwise_lt_range

theorem logAfter_wf (c : Config) (k : Nat) : (logAfter c k).wf := by
  induction k with
  | zero => exact Memory.nil_wf
  | succ k ih => exact Memory.write_wf ih ..

theorem expInPhase_wf (s : State) : (expInPhase s).wf := by
  cases hbs : s.bs <;> simp only [expInPhase, hbs]
  case idle | exp0 => exact Memory.nil_wf
  case expgen | logfix | check | fill | done | failed => exact Memory.range_map_wf ..

theorem logInPhase_wf (s : State) : (logInPhase s).wf := by
  cases hbs : s.bs <;> simp only [logInPhase, hbs]
  case idle | exp0 => exact Memory.nil_wf
  case expgen | logfix => exact logAfter_wf ..
  case check | fill | done | failed => exact Memory.write_wf (logAfter_wf ..) ..

theorem pairCells_wf (c : Config) (f : Elem → Elem → Elem) (k : Nat) : (pairCells c f k).wf :=
  Memory.range_map_wf (fun x => f (BitVec.ofNat 12 (x / c.q)) (BitVec.ofNat 12 (x % c.q))) k

/-- What each phase has written is in canonical form. -/
theorem Inv.tablesCanonical {s : State} (h : Inv s) : TablesCanonical s := by
  rw [TablesCanonical, h.exp, h.log, h.mul, h.div]
  exact ⟨expInPhase_wf s, logInPhase_wf s, pairCells_wf .., pairCells_wf ..⟩

/-- Settles O45: every write keeps the canonical form, and in every phase what has been written so far has it. -/
theorem stepKeepsTablesCanonical : Obligations.StepKeepsTablesCanonical :=
  ⟨fun _ _ => step_tablesCanonical, resetOf_tablesCanonical, fun _ => Inv.tablesCanonical⟩

/-! ## In B_DONE the configuration determines every answer (20_memory.md R61) -/

/-- The outcome `x` of a command in `s` and the outcome `y` of one in `t` are the same response, or neither is one. -/
def AnswersAlike (s t : State) (x y : Result) : Prop :=
  ∀ r, x = .next (answered r s) ↔ y = .next (answered r t)

/-- An answer is determined by its response word. -/
theorem next_answered_inj {s : State} {r r' : RspWord} :
    (.next (answered r s) : Result) = .next (answered r' s) ↔ r = r' := by
  refine ⟨fun h => ?_, fun h => h ▸ rfl⟩
  exact congrArg State.rsp (Host.Outcome.next.inj h)

theorem answered_alike (s t : State) (r : RspWord) :
    AnswersAlike s t (.next (answered r s)) (.next (answered r t)) :=
  fun _ => next_answered_inj.trans next_answered_inj.symm

theorem fault_alike (s t : State) (f : Fault) : AnswersAlike s t (.fault f) (.fault f) := by
  simp [AnswersAlike]

theorem answer_alike (s t : State) (v : Elem) : AnswersAlike s t (answer v s) (answer v t) := by
  rw [answer_eq, answer_eq]
  exact answered_alike s t _

/-- What the answers in B_DONE depend on: the phase, the configuration, INIT_FLAG and the cells. -/
structure SameDone (s t : State) : Prop where
  ready_left : Ready s
  ready_right : Ready t
  bs_left : s.bs = .done
  bs_right : t.bs = .done
  cfg : t.cfg = s.cfg
  initFlag : t.initFlag = s.initFlag
  readCell : ∀ sp k, t.readCell sp k = s.readCell sp k

/-- In B_DONE the invariant gives each table as a function of the configuration (R61). -/
theorem Inv.table_done_eq {s t : State} (hs : Inv s) (ht : Inv t) (hbs : s.bs = .done) (hbt : t.bs = .done)
    (hcfg : t.cfg = s.cfg) (sp : Space) : t.table sp = s.table sp := by
  cases sp with
  | exp => simp only [State.table, hs.exp, ht.exp, expInPhase, hbs, hbt, hcfg]
  | log => simp only [State.table, hs.log, ht.log, logInPhase, hbs, hbt, hcfg]
  | mul => simp only [State.table, hs.mul, ht.mul, filled, hbs, hbt, hcfg]
  | div => simp only [State.table, hs.div, ht.div, filled, hbs, hbt, hcfg]

theorem Inv.sameDone {s t : State} (hs : Inv s) (ht : Inv t) (hbs : s.bs = .done) (hbt : t.bs = .done)
    (hcfg : t.cfg = s.cfg) : SameDone s t where
  ready_left := ⟨hs.legal, by simp [hbs, Phase.busy]⟩
  ready_right := ⟨ht.legal, by simp [hbt, Phase.busy]⟩
  bs_left := hbs
  bs_right := hbt
  cfg := hcfg
  initFlag := by rw [hs.initFlag, ht.initFlag, hbs, hbt]
  readCell sp k := by simp only [State.readCell, State.cell, hs.table_done_eq ht hbs hbt hcfg sp, hcfg]

namespace SameDone

variable {s t : State} (h : SameDone s t)
include h

/-- The prologue decides by the configuration and the operands (R130, R82). -/
theorem command_alike {ops : List Elem} {run run' : State → Result} (hrun : AnswersAlike s t (run s) (run' t)) :
    AnswersAlike s t (command ops run s) (command ops run' t) := by
  cases ho : ops.all (operandInRange s.cfg) with
  | true =>
    rw [command_runs run h.ready_left ho, command_runs run' h.ready_right (h.cfg ▸ ho)]
    exact hrun
  | false =>
    rw [command_range run h.ready_left ho, command_range run' h.ready_right (h.cfg ▸ ho)]
    exact answered_alike s t _

theorem tableCommand_alike {ops : List Elem} {run run' : State → Result}
    (hrun : AnswersAlike s t (run s) (run' t)) :
    AnswersAlike s t (tableCommand ops run s) (tableCommand ops run' t) := by
  refine h.command_alike ?_
  simp only [h.bs_left, h.bs_right]
  exact hrun

/-- A cell of a table has one content in both states. -/
theorem answerCell_alike (sp : Space) (k : Nat) (dz : Bool) :
    AnswersAlike s t (answerCell sp k dz s) (answerCell sp k dz t) := by
  simp only [answerCell, h.readCell]
  cases s.readCell sp k with
  | ok v => exact answered_alike s t _
  | error f => exact fault_alike s t f

/-- The address of a pair is the same in both states (R53). -/
theorem answerPair_alike (sp : Space) (a b : Elem) (dz : Bool) :
    AnswersAlike s t (answerCell sp (pairAddr s.cfg a b) dz s) (answerCell sp (pairAddr t.cfg a b) dz t) := by
  rw [h.cfg]
  exact h.answerCell_alike sp _ dz

theorem logRun_alike (e : Elem) : AnswersAlike s t (logRun e s) (logRun e t) := by
  unfold logRun
  split_ifs
  · exact answered_alike s t _
  · exact h.answerCell_alike .log _ false

theorem statusWord_eq : t.statusWord = s.statusWord := by
  simp only [State.statusWord, State.cfgErr, State.built, h.initFlag, h.bs_left, h.bs_right]

/-- Every command is answered from the configuration, the cells and the status bits. -/
theorem exec_alike (i : Instr) : AnswersAlike s t (exec i s) (exec i t) := by
  cases i with
  | construct v => exact h.tableCommand_alike (answer_alike s t v)
  | mul a b => exact h.tableCommand_alike (h.answerPair_alike .mul a b false)
  | div a b => exact h.tableCommand_alike (h.answerPair_alike .div a b (dzOf b))
  | inv a => exact h.tableCommand_alike (h.answerPair_alike .div 1 a (dzOf a))
  | exp k => exact h.tableCommand_alike (h.answerCell_alike .exp _ false)
  | log e =>
    rw [exec_log, exec_log]
    exact h.tableCommand_alike (h.logRun_alike e)
  | add | sub | neg => exact h.command_alike (answer_alike s t _)
  | width | maxval =>
    refine h.command_alike ?_
    rw [h.cfg]
    exact answer_alike s t _
  | status =>
    refine h.command_alike ?_
    rw [h.statusWord_eq]
    exact answer_alike s t _

end SameDone

/-- Settles O60: in B_DONE the invariant fixes every cell and status bit by the configuration. -/
theorem answersDependOnTheConfigurationAlone : Obligations.AnswersDependOnTheConfigurationAlone :=
  fun _ _ i r hs ht hbs hbt hcfg => (hs.sameDone ht hbs hbt hcfg.symm).exec_alike i r

end Sys2Proof.Machine
end

section
/-! PROOFS. The encoding (30_encoding.md): the fields of a word, decode and encode, the opcode map, the one response of a
consumed command, and the decode order. -/

namespace Sys2Proof.Machine

open Sys2Proof.Laws

/-! ## The fields of a word (R81) -/

/-- Settles O3: the fields are slices of the word, side by side. -/
theorem commandWordIsItsFourFields : Obligations.CommandWordIsItsFourFields := by
  intro w
  have hw := w.isLt
  simp only [fieldOpc, fieldRsv, fieldA, fieldB, BitVec.extractLsb'_toNat, Nat.shiftRight_eq_div_pow]
  omega

/-- A word is determined by its four fields. -/
theorem word_eq_iff {w w' : CmdWord} : w = w' ↔
    fieldOpc w = fieldOpc w' ∧ fieldRsv w = fieldRsv w' ∧ fieldA w = fieldA w' ∧ fieldB w = fieldB w' := by
  refine ⟨fun h => h ▸ ⟨rfl, rfl, rfl, rfl⟩, fun ⟨hopc, hrsv, ha, hb⟩ => ?_⟩
  apply BitVec.eq_of_toNat_eq
  rw [commandWordIsItsFourFields w, commandWordIsItsFourFields w', hopc, hrsv, ha, hb]

/-- `w` has the opcode of `i` in OPC, 0 in RSV, and the operands of `i` in A and B, absent ones 0 (R81, R84). -/
def IsWordOf (w : CmdWord) (i : Instr) : Prop :=
  fieldOpc w = WordFields.opcode i ∧ fieldRsv w = 0 ∧ fieldA w = i.operands.getD 0 0 ∧ fieldB w = i.operands.getD 1 0

theorem encode_isWordOf (i : Instr) : IsWordOf (encode i) i := by
  cases i <;> exact WordFields.formatC_fields ..

/-- A command has one word (R89). -/
theorem isWordOf_iff_encode_eq {w : CmdWord} {i : Instr} : IsWordOf w i ↔ encode i = w := by
  refine ⟨fun h => ?_, fun h => h ▸ encode_isWordOf i⟩
  obtain ⟨hopc, hrsv, ha, hb⟩ := h
  obtain ⟨hopc', hrsv', ha', hb'⟩ := encode_isWordOf i
  exact word_eq_iff.2 ⟨hopc'.trans hopc.symm, hrsv'.trans hrsv.symm, ha'.trans ha.symm, hb'.trans hb.symm⟩

/-! ## Decode and encode (R83, R84, R89) -/

/-- A check of the decoder that passes its word on answers a command only when it holds. -/
theorem ite_error_eq_ok {c : Prop} [Decidable c] {x : Except DecodeError Instr} {e : DecodeError} {i : Instr} :
    (if c then x else .error e) = .ok i ↔ c ∧ x = .ok i := by
  split_ifs with h
  · exact (and_iff_right h).symm
  · exact ⟨nofun, fun h' => absurd h'.1 h⟩

theorem decodeUnary_eq_ok {w : CmdWord} {mk : Elem → Instr} {i : Instr} :
    decodeUnary w mk = .ok i ↔ fieldB w = 0 ∧ mk (fieldA w) = i := by
  rw [decodeUnary, ite_error_eq_ok, Except.ok.injEq]

theorem decodeNullary_eq_ok {w : CmdWord} {i j : Instr} :
    decodeNullary w j = .ok i ↔ (fieldA w = 0 ∧ fieldB w = 0) ∧ j = i := by
  rw [decodeNullary, ite_error_eq_ok, Except.ok.injEq]

theorem decode_eq_ok {w : CmdWord} {i : Instr} : decode w = .ok i ↔ fieldRsv w = 0 ∧ decodeOpcode w = .ok i :=
  ite_error_eq_ok

/-- A command is decoded from its word. -/
theorem decode_of_isWordOf {w : CmdWord} {i : Instr} (h : IsWordOf w i) : decode w = .ok i := by
  obtain ⟨hopc, hrsv, ha, hb⟩ := h
  refine decode_eq_ok.2 ⟨hrsv, ?_⟩
  rw [decodeOpcode, hopc]
  cases i with
  | construct | neg | inv | exp | log => exact decodeUnary_eq_ok.2 ⟨hb, congrArg _ ha⟩
  | add | sub | mul | div => rw [ha, hb]; rfl
  | width | maxval | status => exact decodeNullary_eq_ok.2 ⟨⟨ha, hb⟩, rfl⟩

/-- A word decodes only to a command whose word it is. -/
theorem isWordOf_of_decode {w : CmdWord} {i : Instr} (h : decode w = .ok i) : IsWordOf w i := by
  obtain ⟨hrsv, h⟩ := decode_eq_ok.1 h
  have unary {mk : Elem → Instr} (h : decodeUnary w mk = .ok i) (hops : ∀ a, (mk a).operands = [a])
      (hopc : ∀ a, fieldOpc w = WordFields.opcode (mk a)) : IsWordOf w i := by
    obtain ⟨hb, rfl⟩ := decodeUnary_eq_ok.1 h
    exact ⟨hopc _, hrsv, by rw [hops]; rfl, by rw [hops]; exact hb⟩
  have nullary {j : Instr} (h : decodeNullary w j = .ok i) (hops : j.operands = [])
      (hopc : fieldOpc w = WordFields.opcode j) : IsWordOf w i := by
    obtain ⟨⟨ha, hb⟩, rfl⟩ := decodeNullary_eq_ok.1 h
    exact ⟨hopc, hrsv, by rw [hops]; exact ha, by rw [hops]; exact hb⟩
  unfold decodeOpcode at h
  split at h
  case h_1 ho | h_6 ho | h_7 ho | h_8 ho | h_9 ho =>
    exact unary h (fun _ => rfl) fun _ => BitVec.eq_of_toNat_eq ho
  case h_2 ho | h_3 ho | h_4 ho | h_5 ho =>
    cases h
    exact ⟨BitVec.eq_of_toNat_eq ho, hrsv, rfl, rfl⟩
  case h_10 ho | h_11 ho | h_12 ho => exact nullary h rfl (BitVec.eq_of_toNat_eq ho)
  case h_13 => cases h

/-- R83, R84: a word decodes to `i` exactly when it is the word of `i`. -/
theorem decode_eq_ok_iff {w : CmdWord} {i : Instr} : decode w = .ok i ↔ encode i = w :=
  ⟨fun h => isWordOf_iff_encode_eq.1 (isWordOf_of_decode h), fun h => decode_of_isWordOf (isWordOf_iff_encode_eq.2 h)⟩

/-- Settles O1: the word of a command has that command's fields, and the fields determine what it decodes to. -/
theorem decodeUndoesEncode : Obligations.DecodeUndoesEncode := fun _ => decode_eq_ok_iff.2 rfl

/-- Settles O2: a word that decodes to a command has that command's fields, and the four fields determine the word. -/
theorem encodeUndoesDecode : Obligations.EncodeUndoesDecode := fun _ _ => decode_eq_ok_iff.1

/-- Settles O5: the first ten words are the words of their commands; the eleventh has opcode 6 and a B that is not 0. -/
theorem workedWordsDecode : Obligations.WorkedWordsDecode := by
  unfold Obligations.WorkedWordsDecode
  decide

/-! ## The opcode map (R83, R85) -/

/-- The opcodes no command has (R85). -/
abbrev reservedOpcodes : List (BitVec 4) := [0x0, 0xD, 0xE, 0xF]

/-- CONSTRUCT, NEG, INV, EXP, LOG: B is unused (R84). -/
abbrev unaryOpcodes : List (BitVec 4) := [0x1, 0x6, 0x7, 0x8, 0x9]

/-- ADD, SUB, MUL, DIV: both operand fields are used (R84). -/
abbrev binaryOpcodes : List (BitVec 4) := [0x2, 0x3, 0x4, 0x5]

/-- WIDTH, MAXVAL, STATUS: neither operand field is used (R84). -/
abbrev nullaryOpcodes : List (BitVec 4) := [0xA, 0xB, 0xC]

/-- The opcode of `w` is that of a command, its RSV is 0, and so is every field that command does not use (R84). -/
def InOpcodeMap (w : CmdWord) : Prop :=
  fieldRsv w = 0 ∧
    ((fieldOpc w ∈ unaryOpcodes ∧ fieldB w = 0) ∨ fieldOpc w ∈ binaryOpcodes ∨
      (fieldOpc w ∈ nullaryOpcodes ∧ fieldA w = 0 ∧ fieldB w = 0))

/-- The opcodes of no command are the reserved ones. -/
theorem mem_reservedOpcodes : ∀ o : BitVec 4,
    o ∈ reservedOpcodes ↔ o ∉ unaryOpcodes ∧ o ∉ binaryOpcodes ∧ o ∉ nullaryOpcodes := by
  decide

/-- An opcode is that of one kind of command only. -/
theorem opcode_kinds_disjoint : ∀ o : BitVec 4,
    ¬ (o ∈ unaryOpcodes ∧ o ∈ binaryOpcodes) ∧ ¬ (o ∈ unaryOpcodes ∧ o ∈ nullaryOpcodes) ∧
      ¬ (o ∈ binaryOpcodes ∧ o ∈ nullaryOpcodes) := by
  decide

/-- R85: how a word falls outside the opcode map. -/
theorem not_inOpcodeMap_iff (w : CmdWord) : ¬ InOpcodeMap w ↔
    fieldOpc w ∈ reservedOpcodes ∨ fieldRsv w ≠ 0 ∨ (fieldOpc w ∈ unaryOpcodes ∧ fieldB w ≠ 0) ∨
      (fieldOpc w ∈ nullaryOpcodes ∧ (fieldA w ≠ 0 ∨ fieldB w ≠ 0)) := by
  have reserved := mem_reservedOpcodes (fieldOpc w)
  have disjoint := opcode_kinds_disjoint (fieldOpc w)
  unfold InOpcodeMap
  tauto

/-- R83: a word is the word of a command exactly when it is in the opcode map. -/
theorem exists_isWordOf_iff (w : CmdWord) : (∃ i, IsWordOf w i) ↔ InOpcodeMap w := by
  constructor
  · rintro ⟨i, hopc, hrsv, ha, hb⟩
    refine ⟨hrsv, ?_⟩
    rw [hopc, ha, hb]
    cases i with
    | construct | neg | inv | exp | log => exact .inl ⟨by simp [WordFields.opcode], rfl⟩
    | add | sub | mul | div => exact .inr (.inl (by simp [WordFields.opcode]))
    | width | maxval | status => exact .inr (.inr ⟨by simp [WordFields.opcode], rfl, rfl⟩)
  · rintro ⟨hrsv, h⟩
    simp only [List.mem_cons, List.not_mem_nil, or_false] at h
    obtain ⟨h | h | h | h | h, hb⟩ | (h | h | h | h) | ⟨h | h | h, ha, hb⟩ := h
    · exact ⟨.construct (fieldA w), h, hrsv, rfl, hb⟩
    · exact ⟨.neg (fieldA w), h, hrsv, rfl, hb⟩
    · exact ⟨.inv (fieldA w), h, hrsv, rfl, hb⟩
    · exact ⟨.exp (fieldA w), h, hrsv, rfl, hb⟩
    · exact ⟨.log (fieldA w), h, hrsv, rfl, hb⟩
    · exact ⟨.add (fieldA w) (fieldB w), h, hrsv, rfl, rfl⟩
    · exact ⟨.sub (fieldA w) (fieldB w), h, hrsv, rfl, rfl⟩
    · exact ⟨.mul (fieldA w) (fieldB w), h, hrsv, rfl, rfl⟩
    · exact ⟨.div (fieldA w) (fieldB w), h, hrsv, rfl, rfl⟩
    · exact ⟨.width, h, hrsv, ha, hb⟩
    · exact ⟨.maxval, h, hrsv, ha, hb⟩
    · exact ⟨.status, h, hrsv, ha, hb⟩

/-- R85: a word is illegal exactly when it is outside the opcode map. -/
theorem exists_decode_eq_error_iff (w : CmdWord) : (∃ e, decode w = .error e) ↔ ¬ InOpcodeMap w := by
  simp only [← exists_isWordOf_iff, isWordOf_iff_encode_eq, ← decode_eq_ok_iff]
  cases decode w <;> simp

/-! ## The rows of the opcode map (R83) -/

/-- A word selects a row when each of its fields, masked, is the row's. -/
theorem matchesRow_iff (w v m : CmdWord) : matchesRow w (v, m) = true ↔
    fieldOpc w &&& fieldOpc m = fieldOpc v ∧ fieldRsv w &&& fieldRsv m = fieldRsv v ∧
      fieldA w &&& fieldA m = fieldA v ∧ fieldB w &&& fieldB m = fieldB v := by
  rw [matchesRow, beq_iff_eq, word_eq_iff]
  simp only [fieldOpc, fieldRsv, fieldA, fieldB, BitVec.extractLsb'_and]

/-- The row of a unary command with the opcode `o`: the mask leaves out the operand field A. -/
def unaryRow (o : BitVec 4) : CmdWord × CmdWord := (formatC o 0 0, 0xFF000FFF)

/-- The row of a binary command: the mask leaves out both operand fields. -/
def binaryRow (o : BitVec 4) : CmdWord × CmdWord := (formatC o 0 0, 0xFF000000)

/-- The row of a nullary command: the mask covers the whole word. -/
def nullaryRow (o : BitVec 4) : CmdWord × CmdWord := (formatC o 0 0, 0xFFFFFFFF)

/-- The twelve rows, by the kind of their command. -/
theorem opcodeRows_perm : opcodeRows.Perm
    (unaryOpcodes.map unaryRow ++ binaryOpcodes.map binaryRow ++ nullaryOpcodes.map nullaryRow) := by
  decide

section Rows

variable (w : CmdWord) (o : BitVec 4)

/-- A row of R83 whose match has only an opcode: every other field is 0 where the mask compares it. -/
theorem matchesRow_formatC (m : CmdWord) : matchesRow w (formatC o 0 0, m) = true ↔
    fieldOpc w &&& fieldOpc m = o ∧ fieldRsv w &&& fieldRsv m = 0 ∧ fieldA w &&& fieldA m = 0 ∧
      fieldB w &&& fieldB m = 0 := by
  obtain ⟨hopc, hrsv, ha, hb⟩ := WordFields.formatC_fields o 0 0
  rw [matchesRow_iff, hopc, hrsv, ha, hb]

theorem matchesRow_unaryRow : matchesRow w (unaryRow o) = true ↔ fieldOpc w = o ∧ fieldRsv w = 0 ∧ fieldB w = 0 := by
  have mask : fieldOpc 0xFF000FFF = .allOnes 4 ∧ fieldRsv 0xFF000FFF = .allOnes 4 ∧ fieldA 0xFF000FFF = 0 ∧
      fieldB 0xFF000FFF = .allOnes 12 := by decide
  simp only [unaryRow, matchesRow_formatC, mask, BitVec.and_allOnes]
  simp

theorem matchesRow_binaryRow : matchesRow w (binaryRow o) = true ↔ fieldOpc w = o ∧ fieldRsv w = 0 := by
  have mask : fieldOpc 0xFF000000 = .allOnes 4 ∧ fieldRsv 0xFF000000 = .allOnes 4 ∧ fieldA 0xFF000000 = 0 ∧
      fieldB 0xFF000000 = 0 := by decide
  simp only [binaryRow, matchesRow_formatC, mask, BitVec.and_allOnes]
  simp

theorem matchesRow_nullaryRow :
    matchesRow w (nullaryRow o) = true ↔ fieldOpc w = o ∧ fieldRsv w = 0 ∧ fieldA w = 0 ∧ fieldB w = 0 := by
  have mask : fieldOpc 0xFFFFFFFF = .allOnes 4 ∧ fieldRsv 0xFFFFFFFF = .allOnes 4 ∧
      fieldA 0xFFFFFFFF = .allOnes 12 ∧ fieldB 0xFFFFFFFF = .allOnes 12 := by decide
  simp only [nullaryRow, matchesRow_formatC, mask, BitVec.and_allOnes]

end Rows

/-- R83: a word selects some row exactly when it is in the opcode map. -/
theorem exists_matchesRow_iff (w : CmdWord) : (∃ row ∈ opcodeRows, matchesRow w row = true) ↔ InOpcodeMap w := by
  have mem (l : List (BitVec 4)) (p : Prop) : (∃ o ∈ l, fieldOpc w = o ∧ p) ↔ fieldOpc w ∈ l ∧ p :=
    ⟨fun ⟨_, hl, rfl, hp⟩ => ⟨hl, hp⟩, fun ⟨hl, hp⟩ => ⟨_, hl, rfl, hp⟩⟩
  simp only [opcodeRows_perm.mem_iff, List.mem_append, List.mem_map, or_and_right, exists_or,
    exists_exists_and_eq_and, matchesRow_unaryRow, matchesRow_binaryRow, matchesRow_nullaryRow, mem, InOpcodeMap]
  tauto

/-- Row `k` compares the whole opcode, with the `k + 1` of R83. -/
theorem opcodeRows_opcode : ∀ r ∈ opcodeRows.zipIdx,
    fieldOpc r.1.2 = .allOnes 4 ∧ (fieldOpc r.1.1).toNat = r.2 + 1 := by
  decide

/-- R83: a row that matches is the opcode's own. -/
theorem opcode_of_matchesRow {w : CmdWord} {k : Nat} {row : CmdWord × CmdWord} (h : opcodeRows[k]? = some row)
    (hw : matchesRow w row = true) : (fieldOpc w).toNat = k + 1 := by
  obtain ⟨hmask, hmatch⟩ := opcodeRows_opcode (row, k) (List.mem_zipIdx_iff_getElem?.2 h)
  obtain ⟨hopc, -⟩ := (matchesRow_iff ..).1 hw
  calc (fieldOpc w).toNat
    _ = (fieldOpc w &&& fieldOpc row.2).toNat := by rw [hmask, BitVec.and_allOnes]
    _ = k + 1 := by rw [hopc, hmatch]

/-- Settles O4: both forms of R85 are the complement of the opcode map, and `execWord_error` is the answer. -/
theorem illegalExactlyWhenNoRowMatches : Obligations.IllegalExactlyWhenNoRowMatches := by
  refine ⟨fun w => ?noRow, fun w k row => opcode_of_matchesRow, fun w => ?byFields, fun s w e hs hb hp hd => ?answer,
    ⟨_, rfl⟩, ⟨_, rfl⟩⟩
  case noRow =>
    rw [exists_decode_eq_error_iff, ← exists_matchesRow_iff]
    simp only [not_exists, not_and, Bool.not_eq_true]
  case byFields => rw [exists_decode_eq_error_iff, not_inOpcodeMap_iff]
  case answer => exact (step_word hs hb hp).trans (execWord_error _ hd)

/-! ## One response for each consumed command (R86, R87) -/

/-- R86: the layout of a response. -/
theorem rspWord_toNat (code : Code) (dz : Bool) (result : Elem) :
    (rspWord code dz result).toNat = code.bits.toNat * 2 ^ 13 + dz.toNat * 2 ^ 12 + result.toNat := by
  rw [rspWord, append_toNat, append_toNat, BitVec.toNat_ofBool]
  ring

/-- Settles O7: only an answer consumes a word, and it emits the word it leaves in RSP. -/
theorem oneResponsePerConsumedCommand : Obligations.OneResponsePerConsumedCommand := by
  intro s t h
  obtain ⟨-, ⟨hrst, rfl⟩ | ⟨-, -, hbuild⟩ | ⟨-, -, -, rfl⟩ | ⟨-, hb, w, hp, hw⟩⟩ := step_next h
  · exact .inl ⟨rfl, rfl, .inr hrst⟩
  · have frame := buildStep_frame hbuild
    exact .inl ⟨frame.cmds, frame.emitted, .inl frame.rsp⟩
  · exact .inl ⟨rfl, rfl, .inl rfl⟩
  · obtain ⟨-, rfl, -⟩ | ⟨code, dz, result, zero⟩ := execWord_next (s := tick s) hb hw
    · exact .inl ⟨rfl, rfl, .inl rfl⟩
    · have hcmds : s.cmds = w :: s.cmds.tail := List.eq_cons_of_mem_head? hp
      exact .inr ⟨w, code, dz, result, hcmds, rfl, rspWord_toNat .., zero⟩

/-! ## The decode order (R88) -/

/-- A PURE command is the prologue around an OK answer (R92, R130). -/
theorem exec_pure {i : Instr} (hi : i.needsTables = false) (s : State) :
    ∃ v, exec i s = command i.operands (answer v) s := by
  cases i with
  | add | sub | neg | width | maxval | status => exact ⟨_, rfl⟩
  | construct | mul | div | inv | exp | log => cases hi

/-- The outcome `x` of a command in `s`, where it is a next state, is an OK answer (R87). -/
def AnswersOk (s : State) (x : Result) : Prop := ∀ t, x = .next t → ∃ dz v, t = answered (okWord dz v) s

theorem answer_answersOk (v : Elem) (s : State) : AnswersOk s (answer v s) := by
  intro t h
  rw [answer_eq] at h
  exact ⟨false, v, (Host.Outcome.next.inj h).symm⟩

theorem answerCell_answersOk (sp : Space) (k : Nat) (dz : Bool) (s : State) : AnswersOk s (answerCell sp k dz s) := by
  intro t h
  unfold answerCell at h
  split at h <;> cases h
  exact ⟨dz, _, by rw [respond_eq_answered, rspWord_ok]⟩

/-- A TABLE command is the TABLE prologue around a run that, but for LOG 0, answers OK if it answers (R92, R152). -/
theorem exec_table {i : Instr} (hi : i.needsTables = true) (s : State) :
    ∃ run, exec i s = tableCommand i.operands run s ∧ (i ≠ .log 0 → AnswersOk s (run s)) := by
  cases i with
  | construct => exact ⟨_, rfl, fun _ => answer_answersOk _ _⟩
  | mul | div | inv | exp => exact ⟨_, rfl, fun _ => answerCell_answersOk _ _ _ _⟩
  | log e =>
    refine ⟨logRun e, rfl, fun he => ?_⟩
    rw [logRun, if_neg fun h => he (congrArg Instr.log h)]
    exact answerCell_answersOk _ _ _ _
  | add | sub | neg | width | maxval | status => cases hi

/-- R82: in a ready state a command with an operand out of range is answered RANGE. -/
theorem exec_range {i : Instr} {s : State} (hr : Ready s) (hi : i.wellFormed s.cfg = false) :
    exec i s = .next (answered 0x4000 s) := by
  obtain ⟨run, hrun, -⟩ := exec_eq_command i s
  rw [hrun, command_range run hr (by rwa [all_inRange_eq])]

section WellFormed

variable {i : Instr} {s : State} (hl : s.cfg.legal = true) (hi : i.wellFormed s.cfg = true)
include hl hi

theorem exec_table_idle (ht : i.needsTables = true) (hbs : s.bs = .idle) : exec i s = .next (trigger s) := by
  obtain ⟨run, hrun, -⟩ := exec_table ht s
  rw [hrun, tableCommand_idle run hl hbs (by rwa [all_inRange_eq])]

theorem exec_table_failed (ht : i.needsTables = true) (hbs : s.bs = .failed) : exec i s = .next (answered 0x6000 s) := by
  obtain ⟨run, hrun, -⟩ := exec_table ht s
  rw [hrun, tableCommand_failed run hl hbs (by rwa [all_inRange_eq])]

/-- A command that comes to its run answers OK if it answers, but for LOG 0. -/
theorem exec_answersOk (hb : s.busy = false) (ht : i.needsTables = false ∨ s.bs = .done) (h0 : i ≠ .log 0) :
    AnswersOk s (exec i s) := by
  have hops : i.operands.all (operandInRange s.cfg) = true := by rwa [all_inRange_eq]
  cases htable : i.needsTables with
  | false =>
    obtain ⟨v, hv⟩ := exec_pure htable s
    rw [hv, command_runs _ ⟨hl, hb⟩ hops]
    exact answer_answersOk v s
  | true =>
    obtain ⟨run, hrun, hok⟩ := exec_table htable s
    rw [hrun, tableCommand_done run hl (ht.resolve_left (by simp [htable])) hops]
    exact hok h0

end WellFormed

/-- R152: UNDEF is decided last. -/
theorem exec_log_zero {s : State} (hl : s.cfg.legal = true) (hbs : s.bs = .done) :
    exec (.log 0) s = .next (answered 0x8000 s) := by
  have hops : [(0 : Elem)].all (operandInRange s.cfg) = true := by
    simp [operandInRange_eq, Config.q]
  rw [exec_log, tableCommand_done _ hl hbs hops, logRun, if_pos rfl, respond_eq_answered, rspWord_undef]

/-- Settles O8: the prologue decides RANGE, TRIGGER and BADCFG; past it LOG 0 is UNDEF, and every other command answers
(`Inv.exec_total`), which can only be OK. -/
theorem decodeOrder : Obligations.DecodeOrder := by
  intro s w h hb
  refine ⟨fun e => execWord_error s, fun i hd => ?_⟩
  rw [execWord_ok s hd]
  refine ⟨by simp [Instr.wellFormed], exec_range ⟨h.legal, hb⟩, fun hi => ?_⟩
  refine ⟨exec_table_idle h.legal hi, exec_table_failed h.legal hi, fun ht => ⟨?undef, fun h0 => ?ok⟩⟩
  case undef =>
    rintro rfl
    exact exec_log_zero h.legal (ht.resolve_left nofun)
  case ok =>
    obtain ⟨t, hexec⟩ := h.exec_total i
    obtain ⟨dz, v, rfl⟩ := exec_answersOk h.legal hi hb ht h0 t hexec
    exact ⟨dz, v, hexec⟩

end Sys2Proof.Machine
end

section
/-! PROOFS. The builder (40_builder.md): what starts a build, the BUILD step of each phase and the transitions of BS; the
whole build and its count of steps; the two forms of VALID; and the field whose tables a valid build leaves. -/

namespace Sys2Proof.Machine

/-! ## What starts a build (R101) -/

theorem busy_of_bs {s : State} {p : Phase} (hbs : s.bs = p) : s.busy = p.busy := congrArg Phase.busy hbs

/-- R101: the word at the port is a well-formed TABLE command. -/
def ClaimsBuild (s : State) : Prop :=
  ∃ w i, s.port = some w ∧ decode w = .ok i ∧ i.wellFormed s.cfg = true ∧ i.needsTables = true

theorem step_trigger {s : State} (hs : Running s) (hbs : s.bs = .idle) (hc : ClaimsBuild s) :
    step s = .next (trigger (tick s)) := by
  obtain ⟨w, i, hp, hd, hi, ht⟩ := hc
  rw [step_word hs (busy_of_bs hbs) hp, execWord_ok _ hd]
  exact exec_table_idle (s := tick s) hs.1 hi ht hbs

/-- Of the kinds of step possible in B_IDLE only TRIGGER leaves it. -/
theorem claimsBuild_of_step {s t : State} (h : step s = .next t) (hbs : s.bs = .idle) (ht : t.bs ≠ .idle) :
    ClaimsBuild s := by
  obtain ⟨-, ⟨-, rfl⟩ | ⟨-, hb, -⟩ | ⟨-, -, -, rfl⟩ | ⟨-, hb, w, hp, hw⟩⟩ := step_next h
  · exact absurd (applyReset_bs s) ht
  · simp [hbs, Phase.busy] at hb
  · exact absurd hbs ht
  · obtain ⟨-, -, i, hd, hi, htable⟩ | hans := execWord_next (s := tick s) hb hw
    · exact ⟨w, i, hp, hd, hi, htable⟩
    · obtain ⟨r, rfl⟩ := hans.eq_answered
      exact absurd hbs ht

/-- Settles O14: TRIGGER runs on a word that claims the build, and only such a word leads out of B_IDLE. -/
theorem triggerClaimsTheBuild : Obligations.TriggerClaimsTheBuild :=
  ⟨fun _ w i hs hbs hp hd hi ht => step_trigger hs hbs ⟨w, i, hp, hd, hi, ht⟩,
    fun _ _ hbs h => claimsBuild_of_step h hbs⟩

/-! ## The BUILD step of each phase (R102 to R108) -/

/-- Settles O15. -/
theorem exp0WritesOne : Obligations.Exp0WritesOne := by
  intro s hs hbs
  rw [step_busy hs (busy_of_bs hbs)]
  simp only [buildStep, tick_bs, hbs, finish_eq_next]
  exact buildExp0_eq_ok.2 rfl

/-- R12, R103: `v[W-1:0]`, for every W up to 12. -/
theorem lowBits_toNat {w : Nat} (hw : w ≤ 12) (v : BitVec 13) : (lowBits w v).toNat = v.toNat % 2 ^ w := by
  have hlt : v.toNat % 2 ^ w < 2 ^ w := Nat.mod_lt _ (Nat.two_pow_pos w)
  have hle : 2 ^ w ≤ 2 ^ 12 := Nat.pow_le_pow_right (by decide) hw
  rw [lowBits, BitVec.toNat_ofNat, Nat.mod_eq_of_lt (hlt.trans_le hle)]

/-- R103: the shift of the loop is held in 13 bits, so it loses none. -/
theorem shifted_toNat (u : Elem) : (u.setWidth 13 <<< 1).toNat = 2 * u.toNat := by
  have hu := u.isLt
  simp only [BitVec.toNat_shiftLeft, BitVec.toNat_setWidth, Nat.shiftLeft_eq]
  omega

/-- R103: the new power, as a number. -/
theorem xtime_toNat {w : Nat} (hw : w ≤ 12) (p : Poly) (u : Elem) : (xtime w p u).toNat =
    (if 2 ^ w ≤ 2 * u.toNat then (2 * u.toNat) ^^^ p.toNat else 2 * u.toNat) % 2 ^ w := by
  simp only [xtime, shifted_toNat]
  split_ifs
  · rw [lowBits_toNat hw, BitVec.toNat_xor, shifted_toNat]
  · rw [lowBits_toNat hw, shifted_toNat]

/-- R103: the two ways in which an iteration clears ORD_OK. -/
theorem ordAfter_eq (c : Config) (i v : Elem) (ok : Bool) : ordAfter c i v ok =
    if (i.toNat ≠ c.n ∧ v = 1) ∨ (i.toNat = c.n ∧ v ≠ 1) then false else ok := by
  unfold ordAfter
  split_ifs <;> tauto

/-- Settles O16: the new power is `xtime u`, and both cells the iteration writes are inside their tables. -/
theorem expGenWritesTheNextPower : Obligations.ExpGenWritesTheNextPower := by
  intro s u hs hbs h1 hi hu
  have hn := config_n_succ s.cfg
  have hw : s.cfg.width ≤ 12 := ((config_legal_iff s.cfg).1 hs.1).2.1
  have hne : s.i ≠ 0 := fun h => by simp [h] at h1
  refine ⟨xtime s.cfg.width (effPoly s.cfg) u, xtime_toNat hw .., ?_⟩
  rw [step_busy hs (busy_of_bs hbs)]
  simp only [buildStep, tick_bs, hbs, finish_eq_next]
  rw [← ordAfter_eq]
  exact buildExpGen_eq_ok.2 ⟨hne, show s.i.toNat < s.cfg.q by omega, u, hu, rfl⟩

/-- Settles O17. -/
theorem logFixClearsLogOfOne : Obligations.LogFixClearsLogOfOne := by
  intro s hs hbs
  rw [step_busy hs (busy_of_bs hbs)]
  simp only [buildStep, tick_bs, hbs, finish_eq_next]
  exact buildLogFix_eq_ok.2 ⟨(config_q_bounds hs.1).1, rfl⟩

/-- Settles O18. -/
theorem checkDecidesFillOrFailed : Obligations.CheckDecidesFillOrFailed := by
  intro s hs hbs
  rw [step_busy hs (busy_of_bs hbs)]
  simp only [buildStep, tick_bs, hbs, finish_eq_next, buildCheck_eq_ok, tick_ordOk]
  constructor <;> intro hok <;> simp only [hok, if_true, if_false, Bool.false_eq_true]

theorem config_n_pos {c : Config} (hl : c.legal = true) : 1 ≤ c.n := by
  have hq := (config_q_bounds hl).1
  have hn := config_n_succ c
  omega

/-- An exponent reduced modulo N is the address of a cell of EXP. -/
theorem mod_n_lt_q {c : Config} (hl : c.legal = true) (k : Nat) : k % c.n < c.q := by
  have hn := config_n_succ c
  have := Nat.mod_lt k (config_n_pos hl)
  omega

/-- R108: the zero test comes first. -/
theorem fillCells_zero {s : State} {a b : Elem} (h0 : a = 0 ∨ b = 0) : fillCells s a b = .ok (0, 0) := if_pos h0

/-- R108: for nonzero operands, the cells of EXP at the sum and the difference of the logarithms. -/
theorem fillCells_nonzero {s : State} {a b la lb m d : Elem} (hl : s.cfg.legal = true) (ha0 : a ≠ 0) (hb0 : b ≠ 0)
    (ha : a.toNat < s.cfg.q) (hb : b.toNat < s.cfg.q)
    (hla : s.cell .log a.toNat = some la) (hlb : s.cell .log b.toNat = some lb)
    (hm : s.cell .exp (mulExponent s.cfg la lb) = some m) (hd : s.cell .exp (divExponent s.cfg la lb) = some d) :
    fillCells s a b = .ok (m, d) := by
  simp only [fillCells, ha0, hb0, or_self, if_false, readCell_eq_ok.2 ⟨ha, hla⟩, readCell_eq_ok.2 ⟨hb, hlb⟩]
  have hm' : s.readCell .exp (mulExponent s.cfg la lb) = .ok m := readCell_eq_ok.2 ⟨mod_n_lt_q hl _, hm⟩
  have hd' : s.readCell .exp (divExponent s.cfg la lb) = .ok d := readCell_eq_ok.2 ⟨mod_n_lt_q hl _, hd⟩
  simp only [bind, Except.bind, hm', hd', pure, Except.pure]

/-- Settles O19: the pair's cells are inside MUL and DIV, and what they are to hold is what `fillCells` reads. -/
theorem fillWritesOnePair : Obligations.FillWritesOnePair := by
  intro s m d hs hbs ha hb hmd t
  have hn := config_n_succ s.cfg
  have ha' : s.a.toNat < s.cfg.q := by omega
  have hb' : s.b.toNat < s.cfg.q := by omega
  have hcells : fillCells (tick s) s.a s.b = .ok (m, d) := by
    obtain ⟨h0, rfl, rfl⟩ | ⟨ha0, hb0, la, lb, hla, hlb, hm, hd⟩ := hmd
    · exact fillCells_zero h0
    · exact fillCells_nonzero (s := tick s) hs.1 ha0 hb0 ha' hb' hla hlb hm hd
  rw [step_busy hs (busy_of_bs hbs)]
  simp only [buildStep, tick_bs, hbs, finish_eq_next]
  exact buildFill_eq_ok.2 ⟨pairAddr_lt ha' hb', m, d, hcells, rfl⟩

/-- One subtraction reduces a number below 2N modulo N. -/
theorem mod_of_lt_two_mul {x n : Nat} (hx : x < 2 * n) : x % n = if n ≤ x then x - n else x := by
  split_ifs with h
  · rw [Nat.mod_eq_sub_mod h, Nat.mod_eq_of_lt (by omega)]
  · exact Nat.mod_eq_of_lt (by omega)

/-- R109: the difference of exponents is a difference modulo N. -/
theorem divExponent_add {c : Config} {la lb : Elem} (ha : la.toNat < c.n) (hb : lb.toNat < c.n) :
    (divExponent c la lb + lb.toNat) % c.n = la.toNat := by
  rw [divExponent, Nat.mod_add_mod, Nat.sub_add_cancel (by omega), Nat.add_mod_right, Nat.mod_eq_of_lt ha]

/-- Settles O22. -/
theorem exponentsReduceModN : Obligations.ExponentsReduceModN := by
  intro c la lb _ ha hb
  have hpos : 0 < c.n := by omega
  exact ⟨by omega, by omega, by omega, mod_of_lt_two_mul (by omega), mod_of_lt_two_mul (by omega),
    Nat.mod_lt _ hpos, Nat.mod_lt _ hpos, divExponent_add ha hb⟩

/-! ## The transitions of BS (R100) -/

/-- R110, R111: in B_DONE and B_FAILED the phase stays. -/
theorem step_bs_of_over {s t : State} (h : step s = .next t) (hr : s.rstNow = false) (hb : s.busy = false)
    (hi : s.bs ≠ .idle) : t.bs = s.bs := by
  obtain ⟨hrst, -⟩ | ⟨hbusy, -⟩ | ⟨hidle, -⟩ | ⟨-, r, rfl⟩ | ⟨-, rfl⟩ := step_effect h
  · cases hr.symm.trans hrst
  · cases hb.symm.trans hbusy
  · exact absurd hidle hi
  · rfl
  · rfl

/-- R108: after a step of the fill the phase is B_DONE at the last pair, and B_FILL at every other. -/
theorem nextPair_bs (s : State) : (nextPair s).bs =
    if s.a.toNat = s.cfg.n ∧ s.b.toNat = s.cfg.n then .done else s.bs := by
  unfold nextPair
  split_ifs <;> simp_all

/-- Settles O23: reset, `step_trigger` and `claimsBuild_of_step` for B_IDLE, and the BUILD step of each busy phase. -/
theorem phaseTransitions : Obligations.PhaseTransitions := by
  intro s t h
  refine ⟨fun hr => ?_, fun hr => ?_⟩
  · obtain ⟨-, ⟨-, rfl⟩ | ⟨hr', -⟩ | ⟨hr', -⟩ | ⟨hr', -⟩⟩ := step_next h
    · rfl
    all_goals cases hr'.symm.trans hr
  have hl : s.cfg.legal = true := (step_next h).1
  have hbuild : s.busy = true → buildStep (tick s) = .next t := fun hb => (step_busy ⟨hl, hr⟩ hb).symm.trans h
  cases hbs : s.bs <;> simp only [busy_eq, hbs, Phase.busy, buildStep, tick_bs, finish_eq_next, forall_const] at hbuild
  case idle =>
    by_cases hc : ClaimsBuild s
    · cases (step_trigger ⟨hl, hr⟩ hbs hc).symm.trans h
      exact .inl ⟨rfl, hc⟩
    · exact .inr ⟨not_not.1 fun ht => hc (claimsBuild_of_step h hbs ht), hc⟩
  case exp0 => rw [buildExp0_eq_ok.1 hbuild]
  case expgen =>
    obtain ⟨-, -, u, -, rfl⟩ := buildExpGen_eq_ok.1 hbuild
    exact ⟨fun hi => ⟨if_neg hi, if_neg hi⟩, fun hi => if_pos hi⟩
  case logfix => rw [(buildLogFix_eq_ok.1 hbuild).2]
  case check =>
    rw [buildCheck_eq_ok.1 hbuild]
    constructor <;> intro hok <;> simp [hok]
  case fill =>
    obtain ⟨-, m, d, -, rfl⟩ := buildFill_eq_ok.1 hbuild
    rw [nextPair_bs]
    exact ⟨fun hlast => (if_neg hlast).trans hbs, fun hlast => if_pos hlast⟩
  case done | failed => exact (step_bs_of_over h hr (busy_of_bs hbs) (by simp [hbs])).trans hbs

/-! ## B_FAILED (R111) -/

/-- A PURE command in a ready state is answered OK with dz = 0 (R92, R203). -/
theorem exec_pure_gives {i : Instr} {s : State} (hr : Ready s) (hi : i.wellFormed s.cfg = true)
    (ht : i.needsTables = false) : ∃ v, Gives s i false v := by
  obtain ⟨v, hv⟩ := exec_pure ht s
  exact ⟨v, by rw [Gives, hv, command_runs _ hr (by rwa [all_inRange_eq]), answer_eq]⟩

/-- Settles O27: `runSteps_onlyAnswered`; in B_FAILED nothing is filled, and the configuration is not valid. -/
theorem failedIsTerminal : Obligations.FailedIsTerminal := by
  refine ⟨fun k s t hr hbs => ?terminal, fun s i hl hbs hi => ⟨?table, ?pure⟩, fun s h hbs k => ?unfilled,
    fun s t hs ht hbs hcfg => ?recurs⟩
  case terminal => exact runSteps_onlyAnswered (busy_of_bs hbs) (by simp [hbs]) hr
  case table => exact fun ht => exec_table_failed hl hi ht hbs
  case pure => exact exec_pure_gives ⟨hl, by simp [hbs, Phase.busy]⟩ hi
  case unfilled =>
    have hfilled : filled s = 0 := by simp only [filled, hbs]
    simp [State.cell, State.table, h.mul, h.div, hfilled, pairCells_read]
  case recurs =>
    have hinvalid : configValid t.cfg ≠ true := by simp [hcfg, hs.invalid_if_failed hbs]
    exact ⟨fun hfill => hinvalid (ht.valid_if_filling (.inl hfill)),
      fun hdone => hinvalid (ht.valid_if_filling (.inr hdone))⟩

/-! ## The build as one function (R113) -/

theorem powersLoop_exp (c : Config) (k : Nat) : (powersLoop c k).exp = expCells c (k + 1) := by
  induction k with
  | zero => rfl
  | succ k ih =>
    have last : (expCells c (k + 1)).read k = some (powX c.width (effPoly c) k) := by
      rw [expCells_read, if_pos (Nat.lt_succ_self k)]
    rw [powersLoop, ih, last, Option.getD_some]
    exact expCells_write c (k + 1)

/-- R113: the power that iteration `k + 1` of BUILD computes. -/
theorem powersLoop_power (c : Config) (k : Nat) :
    xtime c.width (effPoly c) (((powersLoop c k).exp.read k).getD 0) = powX c.width (effPoly c) (k + 1) := by
  rw [powersLoop_exp, expCells_read, if_pos (Nat.lt_succ_self k), Option.getD_some, ← powX]

theorem powersLoop_log (c : Config) (k : Nat) : (powersLoop c k).log = logAfter c k := by
  induction k with
  | zero => rfl
  | succ k ih => rw [powersLoop, powersLoop_power, ih, logAfter]

theorem powersLoop_ok_before {c : Config} {k : Nat} (hk : k < c.n) :
    (powersLoop c k).ok = noEarlyOne c.width (effPoly c) (k + 1) := by
  induction k with
  | zero => rfl
  | succ k ih =>
    have hne : (k + 1 == c.n) = false := beq_false_of_ne hk.ne
    rw [powersLoop, powersLoop_power, ih (by omega), noEarlyOne_succ _ (by omega : 1 ≤ k + 1)]
    simp [bne, hne]

/-- R113: BUILD decides VALID. -/
theorem powers_ok {c : Config} (hl : c.legal = true) : (powers c).ok = configValid c := by
  obtain ⟨k, hk⟩ := Nat.exists_eq_add_of_le' (config_n_pos hl)
  have before := powersLoop_ok_before (show k < c.n by omega)
  have hn : c.n = 2 ^ c.width - 1 := rfl
  have hlast : (k + 1 == c.n) = true := beq_iff_eq.2 hk.symm
  rw [configValid, validPoly, ← hn, hk, ← before, powers, hk, powersLoop, powersLoop_power]
  simp [bne, hlast]

theorem powers_exp (c : Config) : (powers c).exp = expCells c c.q := by
  rw [powers, powersLoop_exp, config_n_succ]

theorem powers_log (c : Config) : (powers c).log = logFixed c := by
  rw [powers, powersLoop_log, logFixed]

theorem powers_read_exp_mod {c : Config} (hl : c.legal = true) (k : Nat) :
    ((powers c).exp.read (k % c.n)).getD 0 = powX c.width (effPoly c) (k % c.n) := by
  rw [powers_exp, expCells_read, if_pos (mod_n_lt_q hl k), Option.getD_some]

theorem mulCellOf_powers {c : Config} (hl : c.legal = true) : mulCellOf c (powers c) = mulWanted c := by
  funext a b
  simp only [mulCellOf, mulWanted, mulExponent, powers_read_exp_mod hl, powers_log, logOf]

theorem divCellOf_powers {c : Config} (hl : c.legal = true) : divCellOf c (powers c) = divWanted c := by
  funext a b
  simp only [divCellOf, divWanted, divExponent, powers_read_exp_mod hl, powers_log, logOf]

/-- R113: BUILD on a valid configuration, in the terms of the invariant. -/
theorem buildWhole_of_valid {s : State} (hl : s.cfg.legal = true) (hv : configValid s.cfg = true) :
    buildWhole s = { s with
      exp := expCells s.cfg s.cfg.q
      log := logFixed s.cfg
      mul := pairCells s.cfg (mulWanted s.cfg) (s.cfg.q * s.cfg.q)
      div := pairCells s.cfg (divWanted s.cfg) (s.cfg.q * s.cfg.q)
      i := BitVec.ofNat 12 s.cfg.n
      a := BitVec.ofNat 12 s.cfg.n
      b := BitVec.ofNat 12 s.cfg.n
      ordOk := true
      bs := .done } := by
  simp only [buildWhole, powers_ok hl, hv, if_true, powers_exp, powers_log, mulCellOf_powers hl, divCellOf_powers hl]

/-- R113: BUILD on a configuration that is not valid leaves MUL, DIV, A and B alone. -/
theorem buildWhole_of_invalid {s : State} (hl : s.cfg.legal = true) (hv : configValid s.cfg = false) :
    buildWhole s = { s with
      exp := expCells s.cfg s.cfg.q
      log := logFixed s.cfg
      i := BitVec.ofNat 12 s.cfg.n
      ordOk := false
      bs := .failed } := by
  simp only [buildWhole, powers_ok hl, hv, Bool.false_eq_true, if_false, powers_exp, powers_log]

/-- BUILD writes what BUILD steps write (R113). -/
theorem buildWhole_frame (s : State) : BuildFrame s (buildWhole s) := by
  simp only [buildWhole]
  split_ifs <;> exact ⟨rfl, rfl, rfl, rfl, rfl, rfl⟩

/-! ## A BUILD step on the way (R100, R114) -/

/-- R114: the steps of the fill, if a build comes to it. -/
def fillSteps (c : Config) : Nat := if configValid c then c.q * c.q else 0

/-- R114: how many BUILD steps a build has still to take. -/
def stepsLeft (s : State) : Nat :=
  match s.bs with
  | .exp0 => s.cfg.n + 3 + fillSteps s.cfg
  | .expgen => s.cfg.n - s.i.toNat + 3 + fillSteps s.cfg
  | .logfix => 2 + fillSteps s.cfg
  | .check => 1 + fillSteps s.cfg
  | .fill => s.cfg.q * s.cfg.q - filled s
  | .idle | .done | .failed => 0

theorem stepsLeft_exp0 {s : State} (hbs : s.bs = .exp0) : stepsLeft s = buildSteps s.cfg := by
  have hn := config_n_succ s.cfg
  simp only [stepsLeft, fillSteps, hbs, buildSteps]
  split_ifs <;> omega

theorem stepsLeft_eq_zero {s : State} (hb : s.busy = false) : stepsLeft s = 0 := by
  cases hbs : s.bs <;> simp_all [stepsLeft, Phase.busy]

/-- R108: one step of the fill, one more pair in row order. -/
theorem filled_nextPair {s : State} (hl : s.cfg.legal = true) (hbs : s.bs = .fill) (ha : s.a.toNat ≤ s.cfg.n)
    (hb : s.b.toNat ≤ s.cfg.n) : filled (nextPair s) = pairAddr s.cfg s.a s.b + 1 := by
  have hn := config_n_succ s.cfg
  simp only [nextPair]
  split_ifs with hbn han
  · have hb1 := toNat_add_one hl (lt_of_le_of_ne hb hbn)
    simp only [filled, hbs, pairAddr, hb1]
    omega
  · have ha1 := toNat_add_one hl (lt_of_le_of_ne ha han)
    simp only [filled, hbs, pairAddr, ha1, not_not.1 hbn, Nat.succ_mul, ← hn]
    rfl
  · simp only [filled, pairAddr, not_not.1 hbn, not_not.1 han]
    rw [Nat.add_assoc, hn, ← Nat.succ_mul, Nat.succ_eq_add_one, hn]

theorem stepsLeft_nextPair {s : State} (hl : s.cfg.legal = true) (hbs : s.bs = .fill) (ha : s.a.toNat ≤ s.cfg.n)
    (hb : s.b.toNat ≤ s.cfg.n) :
    stepsLeft (nextPair s) = s.cfg.q * s.cfg.q - (pairAddr s.cfg s.a s.b + 1) := by
  rw [← filled_nextPair hl hbs ha hb, ← (nextPair_frame s).cfg]
  have hphase := nextPair_bs_mem_successors hbs
  cases h : (nextPair s).bs <;> simp_all [stepsLeft, filled, Phase.successors]

theorem nextPair_i (s : State) : (nextPair s).i = s.i := by
  unfold nextPair
  split_ifs <;> rfl

/-- R108: the fill ends with its last pair. -/
theorem nextPair_last {s : State} (hbs : s.bs = .fill) (hdone : (nextPair s).bs = .done) :
    (nextPair s).a.toNat = s.cfg.n ∧ (nextPair s).b.toNat = s.cfg.n := by
  unfold nextPair at hdone ⊢
  split_ifs at hdone ⊢ <;> simp_all

section Step

variable {s t : State} (h : Inv s) (hb : s.busy = true) (ht : buildStep s = .next t)
include h hb ht

/-- R114: a BUILD step leaves one step fewer. -/
theorem stepsLeft_buildStep : stepsLeft s = stepsLeft t + 1 := by
  have hn1 := config_n_pos h.legal
  cases hbs : s.bs <;> simp only [buildStep, hbs, finish_eq_next] at ht
  case exp0 =>
    cases buildExp0_eq_ok.1 ht
    have hone : (1 : Elem).toNat = 1 := rfl
    simp only [stepsLeft, hbs, hone]
    omega
  case expgen =>
    obtain ⟨-, -, u, -, rfl⟩ := buildExpGen_eq_ok.1 ht
    by_cases hi : s.i.toNat = s.cfg.n
    · simp only [stepsLeft, hbs, expGenNext, hi, if_true]
      omega
    · have hlt := lt_of_le_of_ne h.index_i hi
      have hi1 := toNat_add_one h.legal hlt
      simp only [stepsLeft, hbs, expGenNext, hi, if_false, hi1]
      omega
  case logfix =>
    cases (buildLogFix_eq_ok.1 ht).2
    simp only [stepsLeft, hbs]
    omega
  case check =>
    have hord : s.ordOk = configValid s.cfg := h.ordOk.trans (by simp only [ordInPhase, hbs])
    rw [buildCheck_eq_ok.1 ht, hord]
    cases hv : configValid s.cfg <;> simp [stepsLeft, fillSteps, hbs, hv, filled, pairAddr, Nat.add_comm]
  case fill =>
    obtain ⟨hlt, m, d, -, rfl⟩ := buildFill_eq_ok.1 ht
    rw [stepsLeft_nextPair]
    case hl => exact h.legal
    case hbs => exact hbs
    case ha => exact h.index_a
    case hb => exact h.index_b
    simp only [stepsLeft, filled, hbs]
    omega
  case idle | done | failed => simp [hbs, Phase.busy] at hb

/-- A BUILD step keeps the state that the whole build gives: it writes only what BUILD gives a value of its own, and
before B_FILL neither MUL and DIV nor A and B. -/
theorem buildWhole_buildStep : buildWhole t = buildWhole s := by
  have frame := buildStep_frame ht
  cases hv : configValid s.cfg with
  | true =>
    rw [buildWhole_of_valid h.legal hv, buildWhole_of_valid (frame.cfg ▸ h.legal) (frame.cfg ▸ hv)]
    simp only [frame.cfg, frame.initFlag, frame.rsp, frame.cmds, frame.rstIn, frame.emitted]
  | false =>
    rw [buildWhole_of_invalid h.legal hv, buildWhole_of_invalid (frame.cfg ▸ h.legal) (frame.cfg ▸ hv)]
    cases hbs : s.bs <;> simp only [buildStep, hbs, finish_eq_next] at ht
    case exp0 => cases buildExp0_eq_ok.1 ht; rfl
    case expgen =>
      obtain ⟨-, -, u, -, rfl⟩ := buildExpGen_eq_ok.1 ht
      rfl
    case logfix => cases (buildLogFix_eq_ok.1 ht).2; rfl
    case check =>
      have hord : s.ordOk = false := h.ordOk.trans (by simp only [ordInPhase, hbs, hv])
      rw [buildCheck_eq_ok.1 ht, hord]
      rfl
    case fill => cases hv.symm.trans (h.valid_if_filling (.inl hbs))
    case idle | done | failed => simp [hbs, Phase.busy] at hb

end Step

/-! ## The build, step by step (R113, R114) -/

/-- The index registers at rest: I after the loop, A and B after the fill (R103, R108). -/
structure IndexesRest (s : State) : Prop where
  i : s.bs ∉ [Phase.idle, .exp0, .expgen] → s.i.toNat = s.cfg.n
  ab : s.bs = .done → s.a.toNat = s.cfg.n ∧ s.b.toNat = s.cfg.n

theorem IndexesRest.buildStep {s t : State} (h : IndexesRest s) (hb : s.busy = true) (ht : buildStep s = .next t) :
    IndexesRest t := by
  cases hbs : s.bs <;> simp only [Machine.buildStep, hbs, finish_eq_next] at ht
  case exp0 => cases buildExp0_eq_ok.1 ht; exact ⟨by simp, by simp⟩
  case expgen =>
    obtain ⟨-, -, u, -, rfl⟩ := buildExpGen_eq_ok.1 ht
    simp only [expGenNext]
    split_ifs with hi
    · exact ⟨fun _ => hi, by simp⟩
    · exact ⟨by simp, by simp⟩
  case logfix =>
    cases (buildLogFix_eq_ok.1 ht).2
    exact ⟨fun _ => h.i (by simp [hbs]), by simp⟩
  case check =>
    rw [buildCheck_eq_ok.1 ht]
    split_ifs <;> exact ⟨fun _ => h.i (by simp [hbs]), by simp⟩
  case fill =>
    have hcfg := (buildFill_frame ht).cfg
    obtain ⟨-, m, d, -, rfl⟩ := buildFill_eq_ok.1 ht
    refine ⟨fun _ => ?_, fun hdone => ?_⟩
    · exact (congrArg BitVec.toNat (nextPair_i _)).trans ((h.i (by simp [hbs])).trans (congrArg Config.n hcfg.symm))
    · rw [hcfg]
      exact nextPair_last hbs hdone
  case idle | done | failed => simp [hbs, Phase.busy] at hb

/-- A build under way or over, with no reset scheduled. -/
structure Building (s : State) : Prop where
  inv : Inv s
  noReset : s.rstIn = []
  claimed : s.bs ≠ .idle
  rest : IndexesRest s

theorem building_of_exp0 {s : State} (h : Inv s) (hbs : s.bs = .exp0) (hr : s.rstIn = []) : Building s :=
  ⟨h, hr, by simp [hbs], by simp [hbs], by simp [hbs]⟩

/-- A run goes on from where its first step leads. -/
theorem runSteps_of_step {k : Nat} {s u : State} (h : step s = .next u) : runSteps (k + 1) s = runSteps k u := by
  have hcore : core.step s = .next u := h
  simp only [runSteps, Host.Core.run, hcore]
  rfl

/-- A run of one step. -/
theorem runSteps_one (s : State) : runSteps 1 s = step s := by
  have hcore : core.step s = step s := rfl
  simp only [runSteps, Host.Core.run, hcore]
  cases step s <;> rfl

/-- One step more at the end of a run. -/
theorem runSteps_succ {k : Nat} {s t : State} (h : runSteps k s = .next t) : runSteps (k + 1) s = step t := by
  induction k generalizing s with
  | zero => cases h; exact runSteps_one t
  | succ k ih =>
    simp only [runSteps, Host.Core.run] at h
    split at h
    next u hu => exact (runSteps_of_step hu).trans (ih h)
    all_goals cases h

theorem eq_ofNat_n {c : Config} {x : Elem} (hx : x.toNat = c.n) : x = BitVec.ofNat 12 c.n := by
  rw [← hx, BitVec.ofNat_toNat, BitVec.setWidth_eq]

/-- A state is given by its own index registers. -/
theorem State.eq_with_indexes {s : State} {i a b : Elem} (hi : s.i = i) (ha : s.a = a) (hb : s.b = b) :
    s = { s with i := i, a := a, b := b } := by
  subst hi ha hb
  rfl

namespace Building

variable {s t : State}

theorem running (h : Building s) : Running s := ⟨h.inv.legal, by simp [State.rstNow, h.noReset]⟩

/-- One BUILD step: one step fewer is left, and the end of the build is the same. -/
theorem step (h : Building s) (hb : s.busy = true) :
    ∃ t, Machine.step s = .next t ∧ Building t ∧ buildWhole t = buildWhole s ∧ stepsLeft s = stepsLeft t + 1 := by
  obtain ⟨t, ht, hinv⟩ := h.inv.buildStep hb
  refine ⟨t, ?_, ⟨hinv, ?_, buildStep_bs_ne_idle hb ht, h.rest.buildStep hb ht⟩, buildWhole_buildStep h.inv hb ht,
    stepsLeft_buildStep h.inv hb ht⟩
  · rw [step_busy h.running hb, tick_of_no_reset h.noReset, ht]
  · exact (buildStep_frame ht).rstIn.trans h.noReset

/-- A build is BUSY as long as steps are left (R32, R114). -/
theorem busy_iff (h : Building s) : s.busy = true ↔ 0 < stepsLeft s := by
  constructor
  · intro hb
    obtain ⟨t, -, -, -, hleft⟩ := h.step hb
    omega
  · intro hleft
    by_contra hb
    rw [stepsLeft_eq_zero (by simpa using hb)] at hleft
    exact absurd hleft (lt_irrefl 0)

/-- As many steps as are left lead along the build. -/
theorem run (h : Building s) {k : Nat} (hk : k ≤ stepsLeft s) :
    ∃ t, runSteps k s = .next t ∧ Building t ∧ buildWhole t = buildWhole s ∧ stepsLeft s = stepsLeft t + k := by
  induction k with
  | zero => exact ⟨s, rfl, h, rfl, rfl⟩
  | succ k ih =>
    obtain ⟨u, hu, building, whole, left⟩ := ih (by omega)
    obtain ⟨t, ht, building', whole', left'⟩ := building.step (building.busy_iff.2 (by omega))
    exact ⟨t, (runSteps_succ hu).trans ht, building', whole'.trans whole, by omega⟩

/-- A build that is over has come to the state that BUILD gives (R113). -/
theorem eq_buildWhole (h : Building s) (hb : s.busy = false) : s = buildWhole s := by
  have contents := h.inv.contents
  cases hbs : s.bs <;> simp only [expInPhase, logInPhase, filled, ordInPhase, hbs] at contents
  case done =>
    obtain ⟨hexp, hlog, hmul, hdiv, hord⟩ := contents
    have hv := h.inv.valid_if_filling (.inr hbs)
    have hi := eq_ofNat_n (h.rest.i (by simp [hbs]))
    obtain ⟨ha, hb⟩ := h.rest.ab hbs
    rw [buildWhole_of_valid h.inv.legal hv, ← hexp, ← hlog, ← hmul, ← hdiv, ← hbs, ← hv, ← hord]
    exact State.eq_with_indexes hi (eq_ofNat_n ha) (eq_ofNat_n hb)
  case failed =>
    obtain ⟨hexp, hlog, -, -, hord⟩ := contents
    have hv := h.inv.invalid_if_failed hbs
    have hi := eq_ofNat_n (h.rest.i (by simp [hbs]))
    rw [buildWhole_of_invalid h.inv.legal hv, ← hexp, ← hlog, ← hi, ← hbs, ← hv, ← hord]
  case idle => exact absurd hbs h.claimed
  case exp0 | expgen | logfix | check | fill => simp [hbs, Phase.busy] at hb

/-- After all its steps a build is over, in the state that BUILD gives (R113). -/
theorem run_stepsLeft (h : Building s) :
    runSteps (stepsLeft s) s = .next (buildWhole s) ∧ (buildWhole s).busy = false := by
  obtain ⟨t, ht, building, whole, left⟩ := h.run le_rfl
  have hb : t.busy = false := by
    rw [← Bool.not_eq_true, building.busy_iff]
    omega
  rw [ht, ← whole, ← building.eq_buildWhole hb]
  exact ⟨rfl, hb⟩

/-- Until then it is BUSY (R114). -/
theorem busy_before (h : Building s) {k : Nat} (hk : k < stepsLeft s) :
    ∃ t, runSteps k s = .next t ∧ t.busy = true := by
  obtain ⟨t, ht, building, -, left⟩ := h.run hk.le
  exact ⟨t, ht, building.busy_iff.2 (by omega)⟩

end Building

/-- Settles O46: `Building.run_stepsLeft`; TRIGGER comes before the build, and the command it left at the port after
it. -/
theorem buildEqualsTheWholeBuild : Obligations.BuildEqualsTheWholeBuild := by
  have build : ∀ s : State, Inv s → s.bs = .exp0 → s.rstIn = [] →
      runSteps (buildSteps s.cfg) s = .next (buildWhole s) ∧ (buildWhole s).busy = false := fun s h hbs hr =>
    stepsLeft_exp0 hbs ▸ (building_of_exp0 h hbs hr).run_stepsLeft
  refine ⟨fun s h hbs hr => (build s h hbs hr).1, fun s w i h hbs hr hp hd hi ht => ?_⟩
  have running : Running s := ⟨h.legal, by simp [State.rstNow, hr]⟩
  have start : step s = .next (trigger s) := by
    rw [step_trigger running hbs ⟨w, i, hp, hd, hi, ht⟩, tick_of_no_reset hr]
  obtain ⟨run, hb⟩ := build (trigger s) (h.trigger hbs) rfl hr
  have frame := buildWhole_frame (trigger s)
  have running' : Running (buildWhole (trigger s)) := by
    rw [Running, State.rstNow, frame.cfg, frame.rstIn]
    exact running
  have hp' : (buildWhole (trigger s)).port = some w := by
    rw [State.port, frame.cmds]
    exact hp
  calc runSteps (buildSteps s.cfg + 2) s
    _ = runSteps (buildSteps s.cfg + 1) (trigger s) := runSteps_of_step start
    _ = step (buildWhole (trigger s)) := runSteps_succ run
    _ = exec i (tick (buildWhole (trigger s))) := (step_word running' hb hp').trans (execWord_ok _ hd)
    _ = exec i (buildWhole (trigger s)) := by rw [tick_of_no_reset (frame.rstIn.trans hr)]

/-- Settles O47: `Building.run_stepsLeft` and `Building.busy_before`. -/
theorem buildTakesTheCountedSteps : Obligations.BuildTakesTheCountedSteps := by
  intro s h hbs hr
  have building := building_of_exp0 h hbs hr
  have count := stepsLeft_exp0 hbs
  constructor <;> intro hv <;> simp only [buildSteps, hv, if_true, if_false, Bool.false_eq_true] at count <;>
    rw [← count] <;>
    refine ⟨⟨_, building.run_stepsLeft.1, ?_⟩, fun k => building.busy_before⟩
  · rw [buildWhole_of_valid h.legal hv]
  · rw [buildWhole_of_invalid h.legal hv]

/-! ## VALID and the bijection (R106) -/

/-- R106: e_0 is 1, so an early 1 would be met twice. -/
theorem configValid_of_bijection {c : Config} (hl : c.legal = true)
    (hn : powX c.width (effPoly c) c.n = powX c.width (effPoly c) 0)
    (hbij : ∀ x : Elem, InRange c x → x ≠ 0 → ∃! i, i < c.n ∧ powX c.width (effPoly c) i = x) :
    configValid c = true := by
  refine (validPoly_iff ..).2 ⟨hn, fun i h1 hi hone => ?_⟩
  have hq : InRange c 1 := (config_q_bounds hl).1
  have h0 : 0 = i := (hbij 1 hq (by decide)).unique ⟨config_n_pos hl, rfl⟩ ⟨hi, hone⟩
  omega

/-- R106: under a valid configuration each nonzero element is one power of x. -/
theorem existsUnique_powX_eq {c : Config} (hl : c.legal = true) (hv : configValid c = true) {x : Elem}
    (hx : InRange c x) (h0 : x ≠ 0) : ∃! i, i < c.n ∧ powX c.width (effPoly c) i = x := by
  obtain ⟨i, hi, rfl⟩ := exists_powX_eq hl hv hx h0
  exact ⟨i, ⟨hi, rfl⟩, fun j ⟨hj, h⟩ => powX_injOn hv hj hi h⟩

/-- Settles O49: VALID is the first form by definition; the second is `existsUnique_powX_eq` and
`configValid_of_bijection`; at the end of the loop the invariant has ORD_OK as VALID. -/
theorem validExactlyWhenPowersAreABijection : Obligations.ValidExactlyWhenPowersAreABijection := by
  refine ⟨fun c hl => ⟨validPoly_iff .., fun hv => ⟨powX_n hv, fun i hi => ?nonzero, fun x => ?unique⟩,
    fun ⟨hn, _, hbij⟩ => configValid_of_bijection hl hn hbij⟩, fun s h hbs => ?ordOk⟩
  case nonzero => exact powX_ne_zero hv hi.le
  case unique => exact existsUnique_powX_eq hl hv
  case ordOk => rw [h.ordOk, ordInPhase, hbs]

section Field

open Polynomial

/-! ## Numbers as polynomials (R7, R55) -/

/-- The polynomial of the low `d` bits of a number. -/
noncomputable def lowBitPoly (d n : Nat) : (ZMod 2)[X] :=
  ∑ k ∈ Finset.range d, if n.testBit k then X ^ k else 0

/-- R55: the polynomial of a number, bit k the coefficient of x^k. -/
noncomputable def bitPoly (n : Nat) : (ZMod 2)[X] := lowBitPoly n.size n

theorem coeff_lowBitPoly (d n k : Nat) : (lowBitPoly d n).coeff k = if k < d ∧ n.testBit k then 1 else 0 := by
  have term : ∀ j, (if n.testBit j then (X ^ j : (ZMod 2)[X]) else 0).coeff k =
      if k = j then (if n.testBit k then 1 else 0) else 0 := by
    intro j
    split_ifs <;> simp_all [coeff_X_pow]
  simp only [lowBitPoly, finsetSum_coeff, term, Finset.sum_ite_eq, Finset.mem_range, ite_and]

theorem lt_of_testBit {n d k : Nat} (hn : n < 2 ^ d) (hk : n.testBit k = true) : k < d := by
  by_contra h
  rw [Nat.testBit_lt_two_pow (hn.trans_le (Nat.pow_le_pow_right (by decide) (not_lt.1 h)))] at hk
  cases hk

theorem coeff_lowBitPoly_of_lt {d n : Nat} (hn : n < 2 ^ d) (k : Nat) :
    (lowBitPoly d n).coeff k = if n.testBit k then 1 else 0 := by
  rw [coeff_lowBitPoly]
  exact if_congr ⟨And.right, fun h => ⟨lt_of_testBit hn h, h⟩⟩ rfl rfl

theorem coeff_bitPoly (n k : Nat) : (bitPoly n).coeff k = if n.testBit k then 1 else 0 :=
  coeff_lowBitPoly_of_lt n.lt_size_self k

theorem lowBitPoly_eq {d n : Nat} (hn : n < 2 ^ d) : lowBitPoly d n = bitPoly n := by
  ext k
  rw [coeff_lowBitPoly_of_lt hn, coeff_bitPoly]

theorem bitPoly_injective : Function.Injective bitPoly := by
  intro m n h
  refine Nat.eq_of_testBit_eq fun k => ?_
  have hk := congrArg (coeff · k) h
  simp only [coeff_bitPoly] at hk
  cases hm : m.testBit k <;> cases hn : n.testBit k <;> simp_all

theorem natDegree_bitPoly_le {n d : Nat} (hn : n < 2 ^ (d + 1)) : (bitPoly n).natDegree ≤ d := by
  rw [natDegree_le_iff_coeff_eq_zero]
  intro k hk
  rw [coeff_bitPoly, if_neg fun h => absurd (lt_of_testBit hn h) (by omega)]

/-- Every polynomial of degree below `d` is a number of `d` bits. -/
theorem exists_bitPoly_eq {f : (ZMod 2)[X]} {d : Nat} (hf : f.natDegree < d) : ∃ n < 2 ^ d, bitPoly n = f := by
  refine ⟨Nat.ofBits fun i : Fin d => decide (f.coeff i = 1), Nat.ofBits_lt_two_pow _, ?_⟩
  ext k
  rw [coeff_bitPoly]
  by_cases hk : k < d
  · have bit : ∀ x : ZMod 2, (if decide (x = 1) = true then 1 else 0) = x := by decide
    rw [Nat.testBit_ofBits_lt _ _ hk, bit]
  · rw [Nat.testBit_ofBits_ge _ _ (not_lt.1 hk), coeff_eq_zero_of_natDegree_lt (by omega)]
    rfl

theorem bitPoly_zero : bitPoly 0 = 0 := by
  ext k
  simp [coeff_bitPoly]

theorem bitPoly_two_pow (k : Nat) : bitPoly (2 ^ k) = X ^ k := by
  ext j
  simp [coeff_bitPoly, coeff_X_pow, Nat.testBit_two_pow, eq_comm]

/-- R7: the sum of polynomials is bitwise xor. -/
theorem bitPoly_xor (m n : Nat) : bitPoly (m ^^^ n) = bitPoly m + bitPoly n := by
  ext k
  rw [coeff_add, coeff_bitPoly, coeff_bitPoly, coeff_bitPoly, Nat.testBit_xor]
  cases m.testBit k <;> cases n.testBit k <;> decide

theorem bitPoly_shiftLeft (n k : Nat) : bitPoly (n <<< k) = X ^ k * bitPoly n := by
  ext j
  rw [coeff_bitPoly, coeff_X_pow_mul', coeff_bitPoly, Nat.testBit_shiftLeft]
  split_ifs <;> simp_all

/-- One partial product for each bit of the left factor. -/
theorem bitPoly_partialProducts (a b d : Nat) :
    bitPoly ((List.range d).foldl (fun acc k => if a.testBit k then acc ^^^ (b <<< k) else acc) 0) =
      lowBitPoly d a * bitPoly b := by
  induction d with
  | zero => simp [lowBitPoly, bitPoly_zero]
  | succ d ih =>
    rw [List.range_succ, List.foldl_append, lowBitPoly, Finset.sum_range_succ, add_mul, ← lowBitPoly, ← ih]
    simp only [List.foldl_cons, List.foldl_nil]
    split_ifs
    · rw [bitPoly_xor, bitPoly_shiftLeft]
    · rw [zero_mul, add_zero]

theorem bitPoly_clmul {a : Nat} (ha : a < 2 ^ 13) (b : Nat) : bitPoly (clmul a b) = bitPoly a * bitPoly b := by
  rw [← lowBitPoly_eq ha]
  exact bitPoly_partialProducts a b 13

/-! ## The reduction of the loop (R104) -/

section Legal

variable {c : Config} (hl : c.legal = true)
include hl

theorem width_bounds : 1 ≤ c.width ∧ c.width ≤ 12 := ((config_legal_iff c).1 hl).imp_right And.left

/-- R3, R4, R5: the effective polynomial has bit W set and no higher bit. -/
theorem effPoly_degree : (effPoly c).toNat.testBit c.width = true ∧ (effPoly c).toNat < 2 * c.q := by
  obtain ⟨h1, h12, hp⟩ := (config_legal_iff c).1 hl
  have bits : (effPoly c).getLsbD c.width = true ∧ ∀ k, c.width < k → (effPoly c).getLsbD k = false := by
    unfold effPoly
    split_ifs with h0
    · obtain ⟨top, high, -⟩ := (defaultAllowed_iff ..).1 (defaultPoly_allowed h1 h12)
      exact ⟨top, high⟩
    · exact hp.resolve_left h0
  refine ⟨bits.1, ?_⟩
  rw [Config.q, ← Nat.pow_succ']
  exact Nat.lt_pow_two_of_testBit _ fun k hk => bits.2 k hk

variable {u : Elem} (hu : InRange c u)
include hu

omit hl in
theorem le_two_mul_iff_testBit : c.q ≤ 2 * u.toNat ↔ (2 * u.toNat).testBit c.width = true := by
  have hlt : 2 * u.toNat < 2 ^ (c.width + 1) := by
    rw [Nat.pow_succ']
    exact Nat.mul_lt_mul_of_pos_left hu (by decide)
  constructor
  · exact fun h => Nat.testBit_of_two_pow_le_and_two_pow_add_one_gt h hlt
  · intro h
    by_contra hlt'
    rw [Nat.testBit_lt_two_pow (not_le.1 hlt')] at h
    cases h

/-- R104: `t xor P` has bit W clear and is below Q. -/
theorem two_mul_xor_effPoly_lt (ht : c.q ≤ 2 * u.toNat) : (2 * u.toNat) ^^^ (effPoly c).toNat < c.q := by
  obtain ⟨top, hp⟩ := effPoly_degree hl
  have ht' := (le_two_mul_iff_testBit hu).1 ht
  have hlt : (2 * u.toNat) ^^^ (effPoly c).toNat < 2 ^ (c.width + 1) := by
    refine Nat.xor_lt_two_pow ?_ ?_ <;> rw [Nat.pow_succ']
    · exact Nat.mul_lt_mul_of_pos_left hu (by decide)
    · exact hp
  by_contra hge
  have := Nat.testBit_of_two_pow_le_and_two_pow_add_one_gt (not_lt.1 hge) hlt
  rw [Nat.testBit_xor, ht', top] at this
  cases this

/-- R104: the value of x·u, no bit dropped. -/
theorem xtime_toNat_exact : (xtime c.width (effPoly c) u).toNat =
    if c.q ≤ 2 * u.toNat then (2 * u.toNat) ^^^ (effPoly c).toNat else 2 * u.toNat := by
  have hq : c.q = 2 ^ c.width := rfl
  rw [xtime_toNat (width_bounds hl).2, ← hq]
  refine Nat.mod_eq_of_lt ?_
  split_ifs with ht
  · exact two_mul_xor_effPoly_lt hl hu ht
  · exact not_le.1 ht

end Legal

/-! ## Residues modulo P (R116) -/

/-- The effective polynomial over GF(2). -/
noncomputable def modulus (c : Config) : (ZMod 2)[X] := bitPoly (effPoly c).toNat

/-- The residue modulo P of the polynomial of a number. -/
noncomputable def residue (c : Config) (n : Nat) : AdjoinRoot (modulus c) := AdjoinRoot.mk (modulus c) (bitPoly n)

theorem residue_zero (c : Config) : residue c 0 = 0 := by rw [residue, bitPoly_zero, map_zero]

theorem residue_one (c : Config) : residue c 1 = 1 := by
  rw [residue, ← Nat.pow_zero 2, bitPoly_two_pow, pow_zero, map_one]

theorem residue_xor (c : Config) (m n : Nat) : residue c (m ^^^ n) = residue c m + residue c n := by
  rw [residue, bitPoly_xor, map_add]
  rfl

theorem residue_effPoly (c : Config) : residue c (effPoly c).toNat = 0 := AdjoinRoot.mk_self

theorem residue_two_mul (c : Config) (n : Nat) : residue c (2 * n) = residue c 2 * residue c n := by
  have hn : 2 * n = n <<< 1 := by rw [Nat.shiftLeft_eq, Nat.pow_one, Nat.mul_comm]
  rw [hn, residue, bitPoly_shiftLeft, ← bitPoly_two_pow, map_mul]
  rfl

section Legal

variable {c : Config} (hl : c.legal = true)
include hl

theorem natDegree_modulus : (modulus c).natDegree = c.width := by
  obtain ⟨top, hp⟩ := effPoly_degree hl
  refine natDegree_eq_of_le_of_coeff_ne_zero (natDegree_bitPoly_le (by rwa [Nat.pow_succ'])) ?_
  rw [modulus, coeff_bitPoly, top]
  decide

theorem modulus_monic : (modulus c).Monic := by
  rw [Monic, leadingCoeff, natDegree_modulus hl, modulus, coeff_bitPoly, if_pos (effPoly_degree hl).1]

theorem natDegree_elem_le {n : Nat} (hn : n < c.q) : (bitPoly n).natDegree ≤ c.width - 1 := by
  refine natDegree_bitPoly_le ?_
  rwa [Nat.sub_add_cancel (width_bounds hl).1]

/-- An element is determined by its residue: its degree is below that of P. -/
theorem residue_injOn : Set.InjOn (residue c) (Set.Iio c.q) := by
  intro m hm n hn h
  have hdeg : (bitPoly m - bitPoly n).natDegree < (modulus c).natDegree := by
    have := natDegree_sub_le_of_le (natDegree_elem_le hl hm) (natDegree_elem_le hl hn)
    have := (width_bounds hl).1
    rw [natDegree_modulus hl]
    omega
  exact bitPoly_injective (sub_eq_zero.1 (eq_zero_of_dvd_of_natDegree_lt (AdjoinRoot.mk_eq_mk.1 h) hdeg))

theorem residue_elem_inj {x y : Elem} (hx : InRange c x) (hy : InRange c y) :
    residue c x.toNat = residue c y.toNat ↔ x = y :=
  ⟨fun h => BitVec.eq_of_toNat_eq (residue_injOn hl hx hy h), fun h => h ▸ rfl⟩

/-- The quotient of a product by P has degree below W, so it is a number of 12 bits. -/
theorem natDegree_quotient_lt {a b v : Nat} (ha : a < 2 * c.q) (hb : b < c.q) (hv : v < c.q) {f : (ZMod 2)[X]}
    (hf : bitPoly a * bitPoly b - bitPoly v = modulus c * f) : f.natDegree < c.width := by
  have hw := (width_bounds hl).1
  have hprod := natDegree_mul_le_of_le (natDegree_bitPoly_le (d := c.width) (by rwa [Nat.pow_succ']))
    (natDegree_elem_le hl hb)
  have hdiff := natDegree_sub_le_of_le hprod (natDegree_elem_le hl hv)
  rw [← mul_divByMonic_cancel_left f (modulus_monic hl), ← hf, natDegree_divByMonic _ (modulus_monic hl),
    natDegree_modulus hl]
  omega

/-- The remainder modulo P of a product is the element whose residue is the product of the residues. -/
theorem isProductMod_iff {a b v : Elem} (ha : a.toNat < 2 * c.q) (hb : InRange c b) :
    IsProductMod c.width (effPoly c) a b v ↔
      InRange c v ∧ residue c a.toNat * residue c b.toNat = residue c v.toNat := by
  have product : bitPoly (clmul a.toNat b.toNat) = bitPoly a.toNat * bitPoly b.toNat :=
    bitPoly_clmul (a.isLt.trans (by decide)) _
  have multiple : ∀ k < 2 ^ 12,
      bitPoly (clmul k (effPoly c).toNat ^^^ v.toNat) = modulus c * bitPoly k + bitPoly v.toNat := fun k hk => by
    rw [bitPoly_xor, bitPoly_clmul (hk.trans (by decide)), modulus, mul_comm]
  refine and_congr_right fun hv => ⟨fun ⟨k, hk, h⟩ => ?_, fun h => ?_⟩
  · rw [residue, residue, residue, ← map_mul, ← product, h, multiple k hk, map_add, map_mul, AdjoinRoot.mk_self,
      zero_mul, zero_add]
  · obtain ⟨f, hf⟩ := AdjoinRoot.mk_eq_mk.1 ((map_mul _ _ _).trans h)
    have hdeg := natDegree_quotient_lt hl ha hb hv hf
    obtain ⟨k, hk, rfl⟩ := exists_bitPoly_eq (hdeg.trans_le (width_bounds hl).2)
    refine ⟨k, hk, bitPoly_injective ?_⟩
    rw [product, multiple k hk, ← hf, sub_add_cancel]

theorem residue_xtime {u : Elem} (hu : InRange c u) :
    residue c (xtime c.width (effPoly c) u).toNat = residue c 2 * residue c u.toNat := by
  rw [xtime_toNat_exact hl hu, ← residue_two_mul]
  split_ifs
  · rw [residue_xor, residue_effPoly, add_zero]
  · rfl

/-- R104, R116: the new power is x times the old one modulo P. -/
theorem isProductMod_xtime {u : Elem} (hu : InRange c u) :
    IsProductMod c.width (effPoly c) 2 u (xtime c.width (effPoly c) u) := by
  have h2 : (2 : Elem).toNat < 2 * c.q := by
    have := (config_q_bounds hl).1
    exact (show 2 < 2 * c.q by omega)
  exact (isProductMod_iff hl h2 hu).2 ⟨xtime_lt .., (residue_xtime hl hu).symm⟩

theorem residue_powX (i : Nat) : residue c (powX c.width (effPoly c) i).toNat = residue c 2 ^ i := by
  induction i with
  | zero => exact residue_one c
  | succ i ih => rw [powX, residue_xtime hl (powX_lt (width_bounds hl).1 ..), ih, pow_succ']

end Legal

/-- Settles O21: bit W of 2u is bit W-1 of u. -/
theorem reductionIsExact : Obligations.ReductionIsExact := by
  intro c u hl hu
  have hbit := le_two_mul_iff_testBit hu
  have hshift : (2 * u.toNat).testBit c.width = u.getLsbD (c.width - 1) := by
    obtain ⟨w, hw⟩ := Nat.exists_eq_add_of_le' (width_bounds hl).1
    rw [hw, Nat.testBit_succ, Nat.mul_div_cancel_left _ (by decide), Nat.add_sub_cancel]
    rfl
  exact ⟨hbit, hshift ▸ hbit, xtime_toNat_exact hl hu, isProductMod_xtime hl hu⟩

/-! ## The tables of a valid build (R116) -/

section Valid

variable {c : Config} (hl : c.legal = true) (hv : configValid c = true)
include hl hv

theorem logOf_powX {i : Nat} (hi : i < c.n) : (logOf c (powX c.width (effPoly c) i)).toNat = i := by
  have hq := (config_q_bounds hl).2
  have hn := config_n_succ c
  rw [logOf, logFixed_read_powX hv hi, Option.getD_some, BitVec.toNat_ofNat, Nat.mod_eq_of_lt (by omega)]

/-- R170: LOG of a nonzero element is its exponent. -/
theorem powX_logOf {e : Elem} (he : InRange c e) (h0 : e ≠ 0) :
    (logOf c e).toNat < c.n ∧ powX c.width (effPoly c) (logOf c e).toNat = e := by
  obtain ⟨i, hi, rfl⟩ := exists_powX_eq hl hv he h0
  rw [logOf_powX hl hv hi]
  exact ⟨hi, rfl⟩

theorem residue_two_pow_n : residue c 2 ^ c.n = 1 := by
  rw [← residue_powX hl, powX_n hv]
  exact residue_one c

theorem residue_eq_pow_logOf {e : Elem} (he : InRange c e) (h0 : e ≠ 0) :
    residue c e.toNat = residue c 2 ^ (logOf c e).toNat := by
  rw [← residue_powX hl, (powX_logOf hl hv he h0).2]

/-- A nonzero element has a reciprocal, since it is a power of x and x^N = 1. -/
theorem residue_isUnit {e : Elem} (he : InRange c e) (h0 : e ≠ 0) : IsUnit (residue c e.toNat) := by
  rw [residue_eq_pow_logOf hl hv he h0]
  exact (IsUnit.of_pow_eq_one (residue_two_pow_n hl hv) (by have := config_n_pos hl; omega)).pow _

omit hv in
theorem mulWanted_lt (a b : Elem) : InRange c (mulWanted c a b) := by
  unfold mulWanted
  split_ifs
  · exact Nat.two_pow_pos _
  · exact powX_lt (width_bounds hl).1 ..

omit hv in
theorem divWanted_lt (a b : Elem) : InRange c (divWanted c a b) := by
  unfold divWanted
  split_ifs
  · exact Nat.two_pow_pos _
  · exact powX_lt (width_bounds hl).1 ..

variable {a b : Elem} (ha : InRange c a) (hb : InRange c b)
include ha hb

/-- R116: the cell (a, b) of MUL is the product modulo P: the exponents add modulo N because x^N = 1. -/
theorem residue_mulWanted : residue c (mulWanted c a b).toNat = residue c a.toNat * residue c b.toNat := by
  by_cases h0 : a = 0 ∨ b = 0
  · rw [mulWanted, if_pos h0]
    rcases h0 with rfl | rfl <;> simp [residue_zero]
  obtain ⟨ha0, hb0⟩ := not_or.1 h0
  rw [mulWanted, if_neg h0, residue_powX hl, mulExponent, ← pow_eq_pow_mod _ (residue_two_pow_n hl hv), pow_add,
    ← residue_eq_pow_logOf hl hv ha ha0, ← residue_eq_pow_logOf hl hv hb hb0]

/-- R116: the cell (a, b) of DIV times b is a. -/
theorem residue_divWanted_mul (hb0 : b ≠ 0) :
    residue c (divWanted c a b).toNat * residue c b.toNat = residue c a.toNat := by
  by_cases ha0 : a = 0
  · simp [divWanted, ha0, residue_zero]
  have hlt := (powX_logOf hl hv hb hb0).1
  rw [divWanted, if_neg (not_or.2 ⟨ha0, hb0⟩), residue_powX hl, divExponent,
    ← pow_eq_pow_mod _ (residue_two_pow_n hl hv), residue_eq_pow_logOf hl hv hb hb0, ← pow_add,
    Nat.sub_add_cancel (by omega), pow_add, residue_two_pow_n hl hv, mul_one, ← residue_eq_pow_logOf hl hv ha ha0]

omit ha hb in
/-- R116: division by a nonzero element is the unique solution of a multiplication. -/
theorem mulWanted_eq_iff {x : Elem} (hx : InRange c x) (ha : InRange c a) (hb : InRange c b) (hb0 : b ≠ 0) :
    mulWanted c x b = a ↔ x = divWanted c a b := by
  rw [← residue_elem_inj hl (mulWanted_lt hl x b) ha, residue_mulWanted hl hv hx hb,
    ← residue_divWanted_mul hl hv ha hb hb0, (residue_isUnit hl hv hb hb0).mul_left_inj,
    residue_elem_inj hl hx (divWanted_lt hl a b)]

end Valid

/-- R105: no power of x is 0, so LOG[0] is never written. -/
theorem logFixed_read_zero {c : Config} (hv : configValid c = true) : (logFixed c).read 0 = none := by
  have loop : ∀ k ≤ c.n, (logAfter c k).read 0 = none := by
    intro k
    induction k with
    | zero => exact fun _ => rfl
    | succ k ih =>
      intro hk
      have hne : 0 ≠ (powX c.width (effPoly c) (k + 1)).toNat := fun h =>
        powX_ne_zero hv hk (BitVec.eq_of_toNat_eq h.symm)
      rw [logAfter, Memory.read_write_other _ hne, ih (by omega)]
  rw [logFixed, Memory.read_write_other _ (by decide), loop _ le_rfl]

theorem powX_one_of_two_le {c : Config} (hl : c.legal = true) (hw : 2 ≤ c.width) : powX c.width (effPoly c) 1 = 2 := by
  have hq : 2 ^ 2 ≤ c.q := Nat.pow_le_pow_right (by decide) hw
  have h1 : InRange c 1 := (config_q_bounds hl).1
  apply BitVec.eq_of_toNat_eq
  exact (xtime_toNat_exact hl h1).trans (if_neg (show ¬ c.q ≤ 2 * 1 by omega))

section Done

variable {s : State} (h : Inv s) (hbs : s.bs = .done)
include h hbs

theorem Inv.logCell_powX {i : Nat} (hi : i < s.cfg.n) :
    s.cell .log (powX s.cfg.width (effPoly s.cfg) i).toNat = some (BitVec.ofNat 12 i) := by
  simp only [State.cell, State.table, h.log, logInPhase, hbs, logFixed_read_powX (h.valid_if_filling (.inr hbs)) hi]

theorem Inv.logCell_zero : s.cell .log 0 = none := by
  simp only [State.cell, State.table, h.log, logInPhase, hbs, logFixed_read_zero (h.valid_if_filling (.inr hbs))]

/-- R116: each nonzero element stands in EXP once, below N. -/
theorem Inv.existsUnique_expCell {x : Elem} (hx : InRange s.cfg x) (h0 : x ≠ 0) :
    ∃! i, i < s.cfg.n ∧ s.cell .exp i = some x := by
  have hn := config_n_succ s.cfg
  have cell : ∀ i, (i < s.cfg.n ∧ s.cell .exp i = some x) ↔
      i < s.cfg.n ∧ powX s.cfg.width (effPoly s.cfg) i = x := fun i => and_congr_right fun hi => by
    rw [h.expCell_done hbs (by omega), Option.some_inj]
  simp only [cell]
  exact existsUnique_powX_eq h.legal (h.valid_if_filling (.inr hbs)) hx h0

end Done

/-- Settles O48: EXP and LOG hold the powers of x and their exponents; MUL and DIV are the product and the quotient of
residues modulo P; and the invariant gives each table from the configuration. -/
theorem tablesAreTheFieldsTables : Obligations.TablesAreTheFieldsTables := by
  refine ⟨fun s h hbs => ?tables, fun s t hs ht hbs hbt hcfg sp k => ?same⟩
  case same => rw [State.cell, State.cell, hs.table_done_eq ht hbs hbt hcfg.symm]
  have hl := h.legal
  have hv := h.valid_if_filling (.inr hbs)
  have hn := config_n_succ s.cfg
  have hn1 := config_n_pos hl
  have expCell : ∀ i ≤ s.cfg.n, s.cell .exp i = some (powX s.cfg.width (effPoly s.cfg) i) :=
    fun i hi => h.expCell_done hbs (by omega)
  refine ⟨expCell 0 (Nat.zero_le _), ?expN, fun hw => ?exp1, fun i hi => ?expNext, fun x => h.existsUnique_expCell hbs,
    fun i hi => ⟨_, expCell i hi.le, h.logCell_powX hbs hi⟩, h.logCell_powX hbs hn1, h.logCell_zero hbs,
    fun a b ha hb => ⟨_, _, h.mulCell_done hbs ha hb, ?product, h.divCell_done hbs ha hb, ?byZero, ?quotient⟩⟩
  case expN => rw [expCell _ le_rfl, powX_n hv]
  case exp1 => rw [expCell 1 hn1, powX_one_of_two_le hl hw]
  case expNext =>
    exact ⟨_, _, expCell i hi.le, expCell (i + 1) hi, isProductMod_xtime hl (powX_lt (width_bounds hl).1 ..)⟩
  case product =>
    have ha' : a.toNat < 2 * s.cfg.q := by omega
    exact (isProductMod_iff hl ha' hb).2 ⟨mulWanted_lt hl a b, (residue_mulWanted hl hv ha hb).symm⟩
  case byZero => exact fun hb0 => if_pos (.inr hb0)
  case quotient =>
    intro hb0 x hx
    have cell : s.cell .mul (x.toNat * s.cfg.q + b.toNat) = some (mulWanted s.cfg x b) := h.mulCell_done hbs hx hb
    rw [cell, Option.some_inj, mulWanted_eq_iff hl hv hx ha hb hb0]

end Field

end Sys2Proof.Machine
end

section
/-! PROOFS. The field operations (41_field_ops.md): the frame of a command, illegal words of an opcode, the answers of
ADD, SUB and NEG in every ready state, and those of MUL, DIV and INV in each phase. -/

namespace Sys2Proof.Machine

open Sys2Proof.Laws

/-! ## The frame of a command (R130) -/

theorem trigger_cell (s : State) (sp : Space) (k : Nat) : (trigger s).cell sp k = s.cell sp k := by
  cases sp <;> rfl

theorem answered_cell (r : RspWord) (s : State) (sp : Space) (k : Nat) : (answered r s).cell sp k = s.cell sp k := by
  cases sp <;> rfl

/-- Settles O29: a command is held, takes the TRIGGER step, or is answered (`exec_next`). -/
theorem commandFrame : Obligations.CommandFrame := by
  intro i s t h
  obtain ⟨hb, rfl⟩ | ⟨hidle, htable, hwf, rfl⟩ | ⟨hb, hans⟩ := exec_next h
  · exact ⟨fun _ _ => rfl, rfl, rfl, rfl, rfl, rfl, .inl ⟨hb, rfl⟩⟩
  · exact ⟨trigger_cell s, rfl, rfl, rfl, rfl, rfl, .inr (.inl ⟨hidle, htable, hwf, rfl⟩)⟩
  · obtain ⟨r, rfl⟩ := hans.eq_answered
    exact ⟨answered_cell r s, rfl, rfl, rfl, rfl, rfl, .inr (.inr ⟨hb, rfl⟩)⟩

/-! ## Words (R81, R84, R85) -/

/-- The value of a word in format C: RSV is 0. -/
theorem formatC_toNat (o : BitVec 4) (a b : Elem) :
    (formatC o a b).toNat = o.toNat * 0x10000000 + a.toNat * 2 ^ 12 + b.toNat := by
  obtain ⟨hopc, hrsv, ha, hb⟩ := WordFields.formatC_fields o a b
  rw [commandWordIsItsFourFields, hopc, hrsv, ha, hb]
  simp

/-- A unary command leaves B at 0. -/
theorem formatC_unary_toNat (o : BitVec 4) (a : Elem) :
    (formatC o a 0).toNat = o.toNat * 0x10000000 + a.toNat * 2 ^ 12 :=
  (formatC_toNat o a 0).trans (Nat.add_zero _)

/-- A word outside the opcode map is answered ILLEGAL, with no other effect. -/
theorem step_illegal {s : State} {w : CmdWord} (hs : Running s) (hb : s.busy = false) (hp : s.port = some w)
    (hw : ¬ InOpcodeMap w) : step s = .next (answered 0x2000 (tick s)) := by
  obtain ⟨e, he⟩ := (exists_decode_eq_error_iff w).2 hw
  exact (step_word hs hb hp).trans (execWord_error _ he)

/-- A binary command has no unused operand field: only RSV makes its words illegal. -/
theorem answersIllegal_rsv (opc : BitVec 4) : AnswersIllegal opc fun _ => False := by
  intro s w hs hb hp _ hill
  exact step_illegal hs hb hp ((not_inOpcodeMap_iff w).2 (.inr (.inl (hill.resolve_right id))))

/-- RSV or a stray B makes the word of a unary command illegal. -/
theorem answersIllegal_unary {opc : BitVec 4} (hopc : opc ∈ ([0x1, 0x6, 0x7, 0x8, 0x9] : List (BitVec 4))) :
    AnswersIllegal opc fun w => fieldB w ≠ 0 := by
  rintro s w hs hb hp rfl hill
  refine step_illegal hs hb hp ((not_inOpcodeMap_iff w).2 (.inr ?_))
  exact hill.imp_right fun hstray => .inl ⟨hopc, hstray⟩

/-! ## Answers -/

theorem wellFormed_unary {i : Instr} {c : Config} {a : Elem} (hops : i.operands = [a]) :
    i.wellFormed c = true ↔ InRange c a := by
  simp [Instr.wellFormed, hops]

theorem wellFormed_binary {i : Instr} {c : Config} {a b : Elem} (hops : i.operands = [a, b]) :
    i.wellFormed c = true ↔ InRange c a ∧ InRange c b := by
  simp [Instr.wellFormed, hops]

/-- R82: RANGE, for a command of one operand. -/
theorem exec_range_unary {i : Instr} {s : State} {a : Elem} (hr : Ready s) (hops : i.operands = [a])
    (h : ¬InRange s.cfg a) : exec i s = .next (answered 0x4000 s) :=
  exec_range hr (Bool.eq_false_iff.2 (mt (wellFormed_unary hops).1 h))

/-- R82: RANGE, for a command of two operands. -/
theorem exec_range_binary {i : Instr} {s : State} {a b : Elem} (hr : Ready s) (hops : i.operands = [a, b])
    (h : ¬(InRange s.cfg a ∧ InRange s.cfg b)) : exec i s = .next (answered 0x4000 s) :=
  exec_range hr (Bool.eq_false_iff.2 (mt (wellFormed_binary hops).1 h))

theorem okWord_inj {dz dz' : Bool} {v v' : Elem} : okWord dz v = okWord dz' v' ↔ dz = dz' ∧ v = v' := by
  refine ⟨fun h => ?_, fun ⟨hdz, hv⟩ => hdz ▸ hv ▸ rfl⟩
  rw [← rspWord_ok, ← rspWord_ok] at h
  have hword := congrArg BitVec.toNat h
  rw [rspWord_toNat, rspWord_toNat] at hword
  have hv := v.isLt
  have hv' := v'.isLt
  have toNat_inj : ∀ x y : Bool, x.toNat = y.toNat → x = y := by decide
  exact ⟨toNat_inj _ _ (by omega), BitVec.eq_of_toNat_eq (by omega)⟩

/-- A command has one OK answer in one state. -/
theorem gives_iff_of_gives {s : State} {i : Instr} {dz dz' : Bool} {v v' : Elem} (h : Gives s i dz v) :
    Gives s i dz' v' ↔ dz = dz' ∧ v = v' := by
  rw [Gives, h, next_answered_inj, okWord_inj]

/-- R130: a PURE command in a ready state gives what its run answers. -/
theorem gives_of_answer {s : State} {i : Instr} {v : Elem} (hexec : exec i s = command i.operands (answer v) s)
    (hr : Ready s) (hi : i.wellFormed s.cfg = true) : Gives s i false v := by
  rw [Gives, hexec, command_runs _ hr (by rwa [all_inRange_eq]), answer_eq]

/-- R101, R111, R130: what a well-formed TABLE command that answers one cell does in B_IDLE, B_FAILED and B_DONE. -/
theorem answerCell_by_phase {s : State} {i : Instr} {sp : Space} {k : Nat} {dz : Bool}
    (hexec : exec i s = tableCommand i.operands (answerCell sp k dz) s) (hl : s.cfg.legal = true)
    (hi : i.wellFormed s.cfg = true) (hk : k < cells s.cfg sp) :
    (s.bs = .idle → exec i s = .next (trigger s)) ∧
    (s.bs = .failed → exec i s = .next (answered 0x6000 s)) ∧
    (∀ v, s.bs = .done → s.cell sp k = some v → Gives s i dz v) := by
  rw [← all_inRange_eq] at hi
  refine ⟨fun hbs => ?idle, fun hbs => ?failed, fun v hbs hv => ?done⟩
  case idle => rw [hexec, tableCommand_idle _ hl hbs hi]
  case failed => rw [hexec, tableCommand_failed _ hl hbs hi]
  case done => rw [Gives, hexec, tableCommand_done _ hl hbs hi, answerCell_eq dz hk hv]

/-! ## ADD, SUB and NEG (R131, R132, R135) -/

theorem inRange_zero (c : Config) : InRange c 0 := Nat.two_pow_pos _

/-- R131: closure, there is no carry. -/
theorem inRange_xor {c : Config} {a b : Elem} (ha : InRange c a) (hb : InRange c b) : InRange c (a ^^^ b) := by
  rw [InRange, BitVec.toNat_xor]
  exact Nat.xor_lt_two_pow ha hb

section Ready

variable {s : State} (hr : Ready s) {a b : Elem} (ha : InRange s.cfg a) (hb : InRange s.cfg b)
include hr ha

theorem neg_gives : Gives s (.neg a) false a :=
  gives_of_answer rfl hr ((wellFormed_unary rfl).2 ha)

include hb

theorem add_gives : Gives s (.add a b) false (a ^^^ b) :=
  gives_of_answer rfl hr ((wellFormed_binary rfl).2 ⟨ha, hb⟩)

theorem sub_gives : Gives s (.sub a b) false (a ^^^ b) :=
  gives_of_answer rfl hr ((wellFormed_binary rfl).2 ⟨ha, hb⟩)

omit hb

theorem add_self_gives : Gives s (.add a a) false 0 := by
  simpa using add_gives hr ha ha

theorem add_zero_gives : Gives s (.add a 0) false a := by
  simpa using add_gives hr ha (inRange_zero _)

theorem sub_self_gives : Gives s (.sub a a) false 0 := by
  simpa using sub_gives hr ha ha

end Ready

/-- Settles O30: `add_gives`, and closure. -/
theorem addAnswersXor : Obligations.AddAnswersXor := by
  refine ⟨formatC_toNat 0x2, answersIllegal_rsv _, fun s a b hr =>
    ⟨fun ha hb => ?_, exec_range_binary hr rfl⟩⟩
  exact ⟨add_gives hr ha hb, inRange_xor ha hb, add_self_gives hr ha, add_zero_gives hr ha⟩

/-- Settles O31: subtraction is addition in characteristic 2, and exclusive or commutes. -/
theorem subAnswersXor : Obligations.SubAnswersXor := by
  refine ⟨formatC_toNat 0x3, answersIllegal_rsv _, fun s a b hr =>
    ⟨fun ha hb => ?_, exec_range_binary hr rfl⟩⟩
  have swapped : Gives s (.sub b a) false (a ^^^ b) := BitVec.xor_comm b a ▸ sub_gives hr hb ha
  exact ⟨sub_gives hr ha hb, swapped, add_gives hr ha hb, sub_self_gives hr ha⟩

/-- Settles O34: `neg_gives`; an element is its own additive inverse. -/
theorem negAnswersItsOperand : Obligations.NegAnswersItsOperand :=
  ⟨formatC_unary_toNat 0x6, answersIllegal_unary (by decide), fun _ _ hr =>
    ⟨fun ha => ⟨neg_gives hr ha, add_self_gives hr ha⟩, exec_range_unary hr rfl⟩⟩

/-! ## The cells MUL and DIV as products and quotients (R133, R134) -/

theorem mulWanted_comm (c : Config) (a b : Elem) : mulWanted c a b = mulWanted c b a := by
  simp only [mulWanted, mulExponent, or_comm, Nat.add_comm]

theorem mulWanted_of_zero {a b : Elem} (c : Config) (h0 : a = 0 ∨ b = 0) : mulWanted c a b = 0 := if_pos h0

theorem divWanted_of_zero {a b : Elem} (c : Config) (h0 : a = 0 ∨ b = 0) : divWanted c a b = 0 := if_pos h0

section Valid

variable {c : Config} (hl : c.legal = true)
include hl

theorem inRange_one : InRange c 1 := (config_q_bounds hl).1

variable (hv : configValid c = true)
include hv

/-- No power of x is 0, so a product is 0 only through an operand. -/
theorem mulWanted_eq_zero_iff (a b : Elem) : mulWanted c a b = 0 ↔ a = 0 ∨ b = 0 := by
  refine ⟨fun h => ?_, mulWanted_of_zero c⟩
  by_contra h0
  rw [mulWanted, if_neg h0] at h
  exact powX_ne_zero hv (Nat.mod_lt _ (config_n_pos hl)).le h

variable {a b : Elem} (ha : InRange c a)
include ha

theorem mulWanted_one : mulWanted c a 1 = a := by
  rw [← residue_elem_inj hl (mulWanted_lt hl a 1) ha, residue_mulWanted hl hv ha (inRange_one hl)]
  exact (congrArg _ (residue_one c)).trans (mul_one _)

theorem one_mulWanted : mulWanted c 1 a = a := (mulWanted_comm c 1 a).trans (mulWanted_one hl hv ha)

theorem divWanted_one : divWanted c a 1 = a :=
  ((mulWanted_eq_iff hl hv ha ha (inRange_one hl) (by decide)).1 (mulWanted_one hl hv ha)).symm

theorem divWanted_self (ha0 : a ≠ 0) : divWanted c a a = 1 :=
  ((mulWanted_eq_iff hl hv (inRange_one hl) ha ha ha0).1 (one_mulWanted hl hv ha)).symm

/-- A nonzero element times its reciprocal is 1. -/
theorem mulWanted_reciprocal (ha0 : a ≠ 0) : mulWanted c a (divWanted c 1 a) = 1 := by
  rw [mulWanted_comm]
  exact (mulWanted_eq_iff hl hv (divWanted_lt hl 1 a) (inRange_one hl) ha ha0).2 rfl

theorem reciprocal_ne_zero (ha0 : a ≠ 0) : divWanted c 1 a ≠ 0 := by
  intro hzero
  have hone := mulWanted_reciprocal hl hv ha ha0
  rw [mulWanted_of_zero c (.inr hzero)] at hone
  exact absurd hone (by decide)

/-- R177: the reciprocal of the reciprocal. -/
theorem reciprocal_reciprocal (ha0 : a ≠ 0) : divWanted c 1 (divWanted c 1 a) = a :=
  ((mulWanted_eq_iff hl hv ha (inRange_one hl) (divWanted_lt hl 1 a) (reciprocal_ne_zero hl hv ha ha0)).1
    (mulWanted_reciprocal hl hv ha ha0)).symm

omit ha in
/-- R136: the reciprocal as a power of x: the logarithm of 1 is 0. -/
theorem reciprocal_eq_powX (ha0 : a ≠ 0) :
    divWanted c 1 a = powX c.width (effPoly c) ((c.n - (logOf c a).toNat) % c.n) := by
  have hlog : (logOf c 1).toNat = 0 := logOf_powX hl hv (i := 0) (config_n_pos hl)
  rw [divWanted, if_neg (not_or.2 ⟨by decide, ha0⟩), divExponent, hlog, Nat.zero_add]

theorem isProductMod_mulWanted (hb : InRange c b) : IsProductMod c.width (effPoly c) a b (mulWanted c a b) := by
  have ha' : a.toNat < 2 * c.q := by omega
  exact (isProductMod_iff hl ha' hb).2 ⟨mulWanted_lt hl a b, (residue_mulWanted hl hv ha hb).symm⟩

end Valid

/-! ## MUL, DIV and INV by phase (R133, R134, R136) -/

section Phases

variable {s : State} (hl : s.cfg.legal = true) {a b : Elem} (ha : InRange s.cfg a) (hb : InRange s.cfg b)
include hl ha

theorem inv_by_phase :
    (s.bs = .idle → exec (.inv a) s = .next (trigger s)) ∧
    (s.bs = .failed → exec (.inv a) s = .next (answered 0x6000 s)) ∧
    (∀ v, s.bs = .done → s.cell .div (pairAddr s.cfg 1 a) = some v → Gives s (.inv a) (dzOf a) v) :=
  answerCell_by_phase rfl hl ((wellFormed_unary rfl).2 ha)
    (pairAddr_lt (inRange_one hl) ha)

include hb

theorem mul_by_phase :
    (s.bs = .idle → exec (.mul a b) s = .next (trigger s)) ∧
    (s.bs = .failed → exec (.mul a b) s = .next (answered 0x6000 s)) ∧
    (∀ v, s.bs = .done → s.cell .mul (pairAddr s.cfg a b) = some v → Gives s (.mul a b) false v) :=
  answerCell_by_phase rfl hl ((wellFormed_binary rfl).2 ⟨ha, hb⟩) (pairAddr_lt ha hb)

theorem div_by_phase :
    (s.bs = .idle → exec (.div a b) s = .next (trigger s)) ∧
    (s.bs = .failed → exec (.div a b) s = .next (answered 0x6000 s)) ∧
    (∀ v, s.bs = .done → s.cell .div (pairAddr s.cfg a b) = some v → Gives s (.div a b) (dzOf b) v) :=
  answerCell_by_phase rfl hl ((wellFormed_binary rfl).2 ⟨ha, hb⟩) (pairAddr_lt ha hb)

end Phases

section Done

variable {s : State} (h : Inv s) (hbs : s.bs = .done) {a b v : Elem} (ha : InRange s.cfg a) (hb : InRange s.cfg b)
include h hbs ha

/-- In B_DONE INV answers the reciprocal, and marks a zero operand. -/
theorem Inv.inv_gives (hv : divWanted s.cfg 1 a = v) : Gives s (.inv a) (dzOf a) v :=
  (inv_by_phase h.legal ha).2.2 v hbs (hv ▸ h.divCell_done hbs (inRange_one h.legal) ha)

include hb

/-- In B_DONE MUL answers the product. -/
theorem Inv.mul_gives (hv : mulWanted s.cfg a b = v) : Gives s (.mul a b) false v :=
  (mul_by_phase h.legal ha hb).2.2 v hbs (hv ▸ h.mulCell_done hbs ha hb)

/-- In B_DONE DIV answers the quotient, and marks a zero divisor. -/
theorem Inv.div_gives (hv : divWanted s.cfg a b = v) : Gives s (.div a b) (dzOf b) v :=
  (div_by_phase h.legal ha hb).2.2 v hbs (hv ▸ h.divCell_done hbs ha hb)

theorem Inv.mul_gives_iff : Gives s (.mul a b) false v ↔ mulWanted s.cfg a b = v := by
  rw [gives_iff_of_gives (h.mul_gives hbs ha hb rfl)]
  exact and_iff_right rfl

end Done

theorem dzOf_of_ne_zero {b : Elem} (hb0 : b ≠ 0) : dzOf b = false := beq_false_of_ne hb0

/-- Settles O32: in B_DONE the invariant has every cell of MUL, the product modulo P. -/
theorem mulAnswersTheMulCell : Obligations.MulAnswersTheMulCell := by
  refine ⟨formatC_toNat 0x4, answersIllegal_rsv _, fun s a b hr => exec_range_binary hr rfl,
    fun s a b hl ha hb => mul_by_phase hl ha hb, fun s a b h hbs ha hb => ?_⟩
  have hl := h.legal
  have hv := h.valid_if_filling (.inr hbs)
  exact ⟨_, h.mulCell_done hbs ha hb, h.mul_gives hbs ha hb rfl, h.mul_gives hbs hb ha (mulWanted_comm ..),
    h.mul_gives hbs ha (inRange_one hl) (mulWanted_one hl hv ha), mulWanted_eq_zero_iff hl hv a b,
    isProductMod_mulWanted hl hv ha hb⟩

/-- Settles O33: in B_DONE the invariant has every cell of DIV, which for a nonzero divisor is the one solution of a
multiplication (`mulWanted_eq_iff`). -/
theorem divAnswersTheDivCell : Obligations.DivAnswersTheDivCell := by
  refine ⟨formatC_toNat 0x5, answersIllegal_rsv _, fun s a b hr => exec_range_binary hr rfl,
    fun s a b hl ha hb => div_by_phase hl ha hb, fun s a b h hbs ha hb => ?_⟩
  have hl := h.legal
  have hv := h.valid_if_filling (.inr hbs)
  have h0 := inRange_zero s.cfg
  have div {x y v : Elem} (hx : InRange s.cfg x) (hy : InRange s.cfg y) (hy0 : y ≠ 0)
      (hquot : divWanted s.cfg x y = v) : Gives s (.div x y) false v :=
    dzOf_of_ne_zero hy0 ▸ h.div_gives hbs hx hy hquot
  have byZero {x : Elem} (hx : InRange s.cfg x) : Gives s (.div x 0) true 0 :=
    h.div_gives hbs hx h0 (divWanted_of_zero _ (.inr rfl))
  have solves {x y : Elem} (hx : InRange s.cfg x) (hy : InRange s.cfg y) (hb0 : b ≠ 0) :
      mulWanted s.cfg x b = y ↔ x = divWanted s.cfg y b := mulWanted_eq_iff hl hv hx hy hb hb0
  have quotient := divWanted_lt hl a b
  refine ⟨div ha (inRange_one hl) (by decide) (divWanted_one hl hv ha), byZero ha,
    fun ha0 => div ha ha ha0 (divWanted_self hl hv ha ha0),
    fun hb0 => div h0 hb hb0 (divWanted_of_zero _ (.inl rfl)), fun hb0 => ?solution, fun hb0 => ?undoesMul, ?zero⟩
  case solution =>
    exact ⟨_, div ha hb hb0 rfl, quotient, h.mul_gives hbs quotient hb ((solves quotient ha hb0).2 rfl),
      fun c hc hmul => (solves hc ha hb0).1 ((h.mul_gives_iff hbs hc hb).1 hmul)⟩
  case undoesMul =>
    have product := mulWanted_lt hl a b
    exact ⟨_, h.mul_gives hbs ha hb rfl, div product hb hb0 ((solves ha product hb0).1 rfl).symm⟩
  case zero =>
    rintro rfl
    exact ⟨h.mul_gives hbs ha hb (mulWanted_of_zero _ (.inr rfl)), byZero h0⟩

/-- Settles O35: INV reads row 1 of DIV, and DIV 1, a is the reciprocal (`mulWanted_reciprocal`,
`reciprocal_reciprocal`), a power of x (`reciprocal_eq_powX`). -/
theorem invAnswersTheReciprocal : Obligations.InvAnswersTheReciprocal := by
  refine ⟨formatC_unary_toNat 0x7, answersIllegal_unary (by decide), fun s a hr => exec_range_unary hr rfl,
    fun s a hl ha => inv_by_phase hl ha, fun s h hbs => ?_⟩
  have hl := h.legal
  have hv := h.valid_if_filling (.inr hbs)
  have h0 := inRange_zero s.cfg
  have h1 := inRange_one hl
  refine ⟨h.inv_gives hbs h0 (divWanted_of_zero _ (.inr rfl)), h.mul_gives hbs h0 h0 (mulWanted_of_zero _ (.inl rfl)),
    h.inv_gives hbs h1 (divWanted_self hl hv h1 (by decide)), fun a ha ha0 => ?_⟩
  have inv {x v : Elem} (hx : InRange s.cfg x) (hx0 : x ≠ 0) (hquot : divWanted s.cfg 1 x = v) :
      Gives s (.inv x) false v := dzOf_of_ne_zero hx0 ▸ h.inv_gives hbs hx hquot
  have div : Gives s (.div 1 a) false (divWanted s.cfg 1 a) := dzOf_of_ne_zero ha0 ▸ h.div_gives hbs h1 ha rfl
  have reciprocal := divWanted_lt hl 1 a
  refine ⟨_, _, inv ha ha0 rfl, div, h.mul_gives hbs ha reciprocal (mulWanted_reciprocal hl hv ha ha0),
    inv reciprocal (reciprocal_ne_zero hl hv ha ha0) (reciprocal_reciprocal hl hv ha ha0),
    h.logCell_done hbs ha ha0, ?_⟩
  rw [h.expCell_done hbs (mod_n_lt_q hl _), reciprocal_eq_powX hl hv ha0]

end Sys2Proof.Machine
end

section
/-! PROOFS. Construction, table reads and accessors (42_access_ops.md): the answers of WIDTH, MAXVAL and STATUS in every
ready state, and those of CONSTRUCT, EXP and LOG in each phase. -/

namespace Sys2Proof.Machine

/-! ## WIDTH, MAXVAL and STATUS (R153, R154, R155) -/

/-- RSV or a stray A or B makes the word of a nullary command illegal. -/
theorem answersIllegal_nullary {opc : BitVec 4} (hopc : opc ∈ ([0xA, 0xB, 0xC] : List (BitVec 4))) :
    AnswersIllegal opc fun w => fieldA w ≠ 0 ∨ fieldB w ≠ 0 := by
  rintro s w hs hb hp rfl hill
  refine step_illegal hs hb hp ((not_inOpcodeMap_iff w).2 (.inr ?_))
  exact hill.imp_right fun hstray => .inr ⟨hopc, hstray⟩

/-- R153, R154: W and N fit in the 12 bits of RESULT. -/
theorem toNat_ofNat_of_le_n {c : Config} (hl : c.legal = true) {k : Nat} (hk : k ≤ c.n) :
    (BitVec.ofNat 12 k).toNat = k := by
  have hq := (config_q_bounds hl).2
  have hn := config_n_succ c
  rw [BitVec.toNat_ofNat, Nat.mod_eq_of_lt (by omega)]

/-- R33: each bit of the status word has its weight. -/
theorem statusWord_toNat (s : State) :
    s.statusWord.toNat = s.initFlag.toNat + 2 * (s.bs == .done : Bool).toNat + 4 * (s.bs == .failed : Bool).toNat := by
  rw [State.statusWord, append_toNat, append_toNat, append_toNat]
  simp only [BitVec.toNat_ofBool, State.built, State.cfgErr, BitVec.ofNat_eq_ofNat, BitVec.toNat_zero]
  ring

/-- R100: commands execute in the three phases in which no build runs. -/
theorem Phase.busy_eq_false_iff (p : Phase) : p.busy = false ↔ p = .idle ∨ p = .done ∨ p = .failed := by
  cases p <;> decide

section Ready

variable {s : State} (hr : Ready s)
include hr

theorem width_gives : Gives s .width false (BitVec.ofNat 12 s.cfg.width) := gives_of_answer rfl hr rfl

theorem maxval_gives : Gives s .maxval false (BitVec.ofNat 12 s.cfg.n) := gives_of_answer rfl hr rfl

theorem status_gives : Gives s .status false s.statusWord := gives_of_answer rfl hr rfl

/-- R155: the value of the status word names the answer. -/
theorem status_gives_of_toNat {v : Elem} (hv : s.statusWord.toNat = v.toNat) : Gives s .status false v :=
  BitVec.eq_of_toNat_eq hv ▸ status_gives hr

end Ready

/-- Settles O39: `width_gives`; a legal width is at most 12. -/
theorem widthAnswersW : Obligations.WidthAnswersW := by
  refine ⟨by decide, answersIllegal_nullary (by decide), fun s hr => ?_⟩
  obtain ⟨h1, h12⟩ := width_bounds hr.1
  have hle : s.cfg.width ≤ s.cfg.n := Nat.le_sub_one_of_lt Nat.lt_two_pow_self
  exact ⟨_, width_gives hr, toNat_ofNat_of_le_n hr.1 hle, h1, h12⟩

/-- Settles O40: `maxval_gives`. -/
theorem maxvalAnswersN : Obligations.MaxvalAnswersN :=
  ⟨by decide, answersIllegal_nullary (by decide), fun _ hr => ⟨_, maxval_gives hr, toNat_ofNat_of_le_n hr.1 le_rfl⟩⟩

/-- Settles O41: `status_gives`; a ready state is in one of three phases, and each fixes the three bits. -/
theorem statusAnswersTheStatusWord : Obligations.StatusAnswersTheStatusWord := by
  refine ⟨by decide, answersIllegal_nullary (by decide), fun s hr =>
    ⟨⟨_, status_gives hr, statusWord_toNat s⟩, fun hflag => ?_⟩⟩
  have hword := statusWord_toNat s
  rw [hflag] at hword
  obtain hbs | hbs | hbs := (Phase.busy_eq_false_iff s.bs).1 hr.2 <;> rw [hbs] at hword
  · exact .inl ⟨hbs, status_gives_of_toNat hr hword⟩
  · exact .inr (.inl ⟨hbs, status_gives_of_toNat hr hword⟩)
  · exact .inr (.inr ⟨hbs, status_gives_of_toNat hr hword⟩)

/-! ## CONSTRUCT, EXP and LOG by phase (R150, R151, R152) -/

/-- R82: the range check of a command of one operand. -/
theorem all_inRange_singleton {c : Config} {a : Elem} (ha : InRange c a) :
    [a].all (operandInRange c) = true := by
  simp [operandInRange_eq, ha]

section Phases

variable {s : State} (hl : s.cfg.legal = true) {a : Elem} (ha : InRange s.cfg a)
include hl ha

/-- R150: in B_DONE CONSTRUCT answers its operand. -/
theorem construct_gives (hbs : s.bs = .done) : Gives s (.construct a) false a :=
  (tableCommand_done (answer a) hl hbs (all_inRange_singleton ha)).trans (answer_eq a s)

theorem exp_by_phase :
    (s.bs = .idle → exec (.exp a) s = .next (trigger s)) ∧
    (s.bs = .failed → exec (.exp a) s = .next (answered 0x6000 s)) ∧
    (∀ v, s.bs = .done → s.cell .exp a.toNat = some v → Gives s (.exp a) false v) :=
  answerCell_by_phase rfl hl ((wellFormed_unary rfl).2 ha) ha

/-- R152: in B_DONE LOG of a nonzero element answers its cell. -/
theorem log_gives_cell (hbs : s.bs = .done) (ha0 : a ≠ 0) {v : Elem} (hv : s.cell .log a.toNat = some v) :
    Gives s (.log a) false v := by
  rw [Gives, exec_log, tableCommand_done _ hl hbs (all_inRange_singleton ha), logRun, if_neg ha0,
    answerCell_eq false ha hv]

end Phases

/-- Settles O36: CONSTRUCT goes by phase like every TABLE command, and reads no cell (`construct_gives`). -/
theorem constructAnswersItsValue : Obligations.ConstructAnswersItsValue := by
  refine ⟨formatC_unary_toNat 0x1, answersIllegal_unary (by decide), fun s v hr =>
    ⟨exec_range_unary hr rfl, fun hv => ?_⟩⟩
  have hwf : (Instr.construct v).wellFormed s.cfg = true := (wellFormed_unary rfl).2 hv
  exact ⟨exec_table_idle hr.1 hwf rfl, exec_table_failed hr.1 hwf rfl, construct_gives hr.1 hv⟩

/-! ## EXP and LOG as powers and exponents (R151, R152) -/

/-- R151: N is the last index of EXP. -/
theorem inRange_ofNat_of_le_n {c : Config} (hl : c.legal = true) {k : Nat} (hk : k ≤ c.n) :
    InRange c (BitVec.ofNat 12 k) := by
  have hn := config_n_succ c
  rw [InRange, toNat_ofNat_of_le_n hl hk]
  omega

/-- R106: the one index of EXP that reduction modulo N changes is N, and x^N = x^0. -/
theorem powX_mod_n {c : Config} (hv : configValid c = true) {k : Nat} (hk : k ≤ c.n) :
    powX c.width (effPoly c) (k % c.n) = powX c.width (effPoly c) k := by
  rcases hk.eq_or_lt with rfl | hlt
  · rw [Nat.mod_self, powX_n hv, powX]
  · rw [Nat.mod_eq_of_lt hlt]

/-- R6: with W at least 2 there is a power of x between 1 and x^N. -/
theorem one_lt_n_of_two_le {c : Config} (hw : 2 ≤ c.width) : 1 < c.n := by
  have hq : 2 ^ 2 ≤ c.q := Nat.pow_le_pow_right (by decide) hw
  have hn := config_n_succ c
  omega

section Done

variable {s : State} (h : Inv s) (hbs : s.bs = .done) {k : Nat} {x : Elem}
include h hbs

/-- In B_DONE EXP answers a power of x. -/
theorem Inv.exp_gives (hk : k ≤ s.cfg.n) (hx : powX s.cfg.width (effPoly s.cfg) k = x) :
    Gives s (.exp (BitVec.ofNat 12 k)) false x := by
  have hi := inRange_ofNat_of_le_n h.legal hk
  refine (exp_by_phase h.legal hi).2.2 x hbs ?_
  rw [h.expCell_done hbs hi, toNat_ofNat_of_le_n h.legal hk, hx]

/-- In B_DONE LOG answers the exponent below N of a power of x. -/
theorem Inv.log_gives (hk : k < s.cfg.n) (hx : powX s.cfg.width (effPoly s.cfg) k = x) :
    Gives s (.log x) false (BitVec.ofNat 12 k) := by
  subst hx
  have hne := powX_ne_zero (h.valid_if_filling (.inr hbs)) hk.le
  exact log_gives_cell h.legal (powX_lt (width_bounds h.legal).1 ..) hbs hne (h.logCell_powX hbs hk)

end Done

/-- Settles O37: in B_DONE the invariant has every cell of EXP, the power of x at its index (`Inv.exp_gives`). -/
theorem expAnswersTheExpCell : Obligations.ExpAnswersTheExpCell := by
  refine ⟨formatC_unary_toNat 0x8, answersIllegal_unary (by decide), fun s i hr => exec_range_unary hr rfl,
    fun s i hl hi => exp_by_phase hl hi, fun s h hbs => ?_⟩
  have hl := h.legal
  refine ⟨fun i hi => ?below, h.exp_gives hbs (Nat.zero_le _) rfl,
    h.exp_gives hbs le_rfl (powX_n (h.valid_if_filling (.inr hbs))), fun hw => ?one⟩
  case below =>
    exact ⟨_, (exp_by_phase hl hi).2.2 _ hbs (h.expCell_done hbs hi), powX_lt (width_bounds hl).1 ..⟩
  case one => exact h.exp_gives hbs (config_n_pos hl) (powX_one_of_two_le hl hw)

/-- Settles O38: in B_DONE a nonzero element is a power of x (`exists_powX_eq`), and LOG and EXP go between the powers
and their exponents below N (`Inv.log_gives`, `Inv.exp_gives`). -/
theorem logAnswersTheLogCell : Obligations.LogAnswersTheLogCell := by
  refine ⟨formatC_unary_toNat 0x9, answersIllegal_unary (by decide), fun s e hr => exec_range_unary hr rfl,
    fun s e hl he => ?byPhase, fun s h hbs => ?done⟩
  case byPhase =>
    have hwf : (Instr.log e).wellFormed s.cfg = true := (wellFormed_unary rfl).2 he
    exact ⟨exec_table_idle hl hwf rfl, exec_table_failed hl hwf rfl, fun hbs h0 => h0 ▸ exec_log_zero hl hbs,
      fun v hbs h0 => log_gives_cell hl he hbs h0⟩
  case done =>
    have hl := h.legal
    have hv := h.valid_if_filling (.inr hbs)
    have hn := config_n_pos hl
    refine ⟨fun e he h0 => ?expOfLog, fun i hi => ?logOfExp, h.log_gives hbs hn rfl, fun hw => ?two⟩
    case expOfLog =>
      obtain ⟨k, hk, hpow⟩ := exists_powX_eq hl hv he h0
      have hval : (BitVec.ofNat 12 k).toNat < s.cfg.n := (toNat_ofNat_of_le_n hl hk.le).trans_lt hk
      exact ⟨_, hval, h.log_gives hbs hk hpow, h.exp_gives hbs hk.le hpow⟩
    case logOfExp =>
      have hle : i.toNat ≤ s.cfg.n := by have := config_n_succ s.cfg; omega
      exact ⟨_, (exp_by_phase hl hi).2.2 _ hbs (h.expCell_done hbs hi),
        h.log_gives hbs (Nat.mod_lt _ hn) (powX_mod_n hv hle)⟩
    case two => exact h.log_gives hbs (one_lt_n_of_two_le hw) (powX_one_of_two_le hl hw)

end Sys2Proof.Machine
end

section
/-! PROOFS. The laws of the arithmetic (43_arith_laws.md): the additive laws in every ready state; in B_DONE, EXP and LOG
as mutual inverses, the cells of MUL and DIV through them, and the field laws as answers of the commands; the two valid
polynomials of degree 4. -/

namespace Sys2Proof.Machine

/-! ## The additive group (R175) -/

/-- Settles O56: `add_gives`, `sub_gives` and `neg_gives`; exclusive or is a commutative group of exponent 2. -/
theorem additiveGroupLaws : Obligations.AdditiveGroupLaws := by
  intro s a b c hr ha hb hc
  have swapped : Gives s (.add b a) false (a ^^^ b) := BitVec.xor_comm b a ▸ add_gives hr hb ha
  have regrouped : Gives s (.add a (b ^^^ c)) false (a ^^^ b ^^^ c) :=
    BitVec.xor_assoc a b c ▸ add_gives hr ha (inRange_xor hb hc)
  exact ⟨add_self_gives hr ha, add_zero_gives hr ha, neg_gives hr ha, _, _, _, add_gives hr ha hb, swapped,
    sub_gives hr ha hb, add_gives hr hb hc, add_gives hr (inRange_xor ha hb) hc, regrouped⟩

/-! ## EXP, LOG, and the cells of MUL and DIV (R170 to R173) -/

/-- Settles O52: EXP holds the powers of x and LOG their exponents below N (`powX_logOf`, `Inv.logCell_powX`); at i = N
the power is that at 0 (`powX_mod_n`). -/
theorem expAndLogAreMutualInverses : Obligations.ExpAndLogAreMutualInverses := by
  intro s h hbs
  have hl := h.legal
  have hv := h.valid_if_filling (.inr hbs)
  have hn := config_n_succ s.cfg
  have hn1 := config_n_pos hl
  refine ⟨fun e he h0 => ?expOfLog, fun i hi => ?logOfExp, h.logCell_zero hbs, h.logCell_powX hbs hn1,
    h.expCell_done hbs (Nat.two_pow_pos _)⟩
  case expOfLog =>
    obtain ⟨hlt, hpow⟩ := powX_logOf hl hv he h0
    exact ⟨_, h.logCell_done hbs he h0, by rw [h.expCell_done hbs (by omega), hpow]⟩
  case logOfExp =>
    exact ⟨_, h.expCell_done hbs (by omega), powX_mod_n hv hi ▸ h.logCell_powX hbs (Nat.mod_lt i hn1)⟩

theorem mulWanted_of_ne_zero {a b : Elem} (c : Config) (ha0 : a ≠ 0) (hb0 : b ≠ 0) :
    mulWanted c a b = powX c.width (effPoly c) (mulExponent c (logOf c a) (logOf c b)) := if_neg (not_or.2 ⟨ha0, hb0⟩)

theorem divWanted_of_ne_zero {a b : Elem} (c : Config) (ha0 : a ≠ 0) (hb0 : b ≠ 0) :
    divWanted c a b = powX c.width (effPoly c) (divExponent c (logOf c a) (logOf c b)) := if_neg (not_or.2 ⟨ha0, hb0⟩)

/-- No power of x is 0, so a quotient is 0 only through an operand. -/
theorem divWanted_eq_zero_iff {c : Config} (hl : c.legal = true) (hv : configValid c = true) (a b : Elem) :
    divWanted c a b = 0 ↔ a = 0 ∨ b = 0 := by
  refine ⟨fun h => ?_, divWanted_of_zero c⟩
  by_contra h0
  obtain ⟨ha0, hb0⟩ := not_or.1 h0
  rw [divWanted_of_ne_zero c ha0 hb0] at h
  exact powX_ne_zero hv (Nat.mod_lt _ (config_n_pos hl)).le h

/-- Settles O53: the fill read the cell of EXP at the sum of the logarithms, which is never 0
(`mulWanted_eq_zero_iff`). -/
theorem mulCellIsTheSumOfLogarithms : Obligations.MulCellIsTheSumOfLogarithms := by
  intro s a b h hbs ha hb
  have hl := h.legal
  refine ⟨_, h.mulCell_done hbs ha hb, mulWanted_eq_zero_iff hl (h.valid_if_filling (.inr hbs)) a b, fun ha0 hb0 =>
    ⟨_, _, h.logCell_done hbs ha ha0, h.logCell_done hbs hb hb0, ?_⟩⟩
  rw [mulWanted_of_ne_zero _ ha0 hb0]
  exact h.expCell_done hbs (mod_n_lt_q hl _)

/-- Settles O54: the fill read the cell of EXP at the difference of the logarithms, which is never 0
(`divWanted_eq_zero_iff`). -/
theorem divCellIsTheDifferenceOfLogarithms : Obligations.DivCellIsTheDifferenceOfLogarithms := by
  intro s a b h hbs ha hb
  have hl := h.legal
  refine ⟨_, h.divCell_done hbs ha hb, divWanted_eq_zero_iff hl (h.valid_if_filling (.inr hbs)) a b, fun ha0 hb0 =>
    ⟨_, _, h.logCell_done hbs ha ha0, h.logCell_done hbs hb hb0, ?_⟩⟩
  rw [divWanted_of_ne_zero _ ha0 hb0]
  exact h.expCell_done hbs (mod_n_lt_q hl _)

/-! ## Closure and totality (R174) -/

/-- In B_DONE every command is answered by one response: none is held, and no build is left to trigger. -/
theorem Inv.exec_done {s : State} (h : Inv s) (hbs : s.bs = .done) (i : Instr) :
    ∃ r, exec i s = .next (Machine.answered r s) := by
  obtain ⟨t, hexec⟩ := h.exec_total i
  obtain ⟨hb, -⟩ | ⟨hidle, -⟩ | ⟨-, hans⟩ := exec_next hexec
  · simp [hbs, Phase.busy] at hb
  · cases hbs.symm.trans hidle
  · obtain ⟨r, rfl⟩ := hans.eq_answered
    exact ⟨r, hexec⟩

/-- Settles O55: the answers are exclusive ors, operands and cells, each below Q; `Inv.exec_done` is totality. -/
theorem operationsAreClosedAndTotal : Obligations.OperationsAreClosedAndTotal := by
  refine ⟨fun s a b hr ha hb => ?pure, fun s a b h hbs ha hb => ?table, fun s i h hbs _ => h.exec_done hbs i⟩
  case pure =>
    have sum := inRange_xor ha hb
    exact ⟨⟨_, add_gives hr ha hb, sum⟩, ⟨_, sub_gives hr ha hb, sum⟩, _, neg_gives hr ha, ha⟩
  case table =>
    have hl := h.legal
    exact ⟨⟨_, h.mul_gives hbs ha hb rfl, mulWanted_lt hl a b⟩, ⟨_, _, h.div_gives hbs ha hb rfl, divWanted_lt hl a b⟩,
      ⟨_, _, h.inv_gives hbs ha rfl, divWanted_lt hl 1 a⟩, _, construct_gives hl ha hbs, ha⟩

/-! ## The field laws of MUL (R176, R180) -/

section Valid

variable {c : Config} (hl : c.legal = true) (hv : configValid c = true) {a b d : Elem} (ha : InRange c a)
  (hb : InRange c b)
include hl hv ha hb

/-- R176: residues modulo P multiply associatively, and an element is determined by its residue. -/
theorem mulWanted_assoc (hd : InRange c d) : mulWanted c (mulWanted c a b) d = mulWanted c a (mulWanted c b d) := by
  have hab := mulWanted_lt hl a b
  have hbd := mulWanted_lt hl b d
  rw [← residue_elem_inj hl (mulWanted_lt hl _ d) (mulWanted_lt hl a _), residue_mulWanted hl hv hab hd,
    residue_mulWanted hl hv ha hb, residue_mulWanted hl hv ha hbd, residue_mulWanted hl hv hb hd, mul_assoc]

/-- R180: residues modulo P distribute, and exclusive or is their sum. -/
theorem mulWanted_xor (hd : InRange c d) : mulWanted c a (b ^^^ d) = mulWanted c a b ^^^ mulWanted c a d := by
  have hab := mulWanted_lt hl a b
  have had := mulWanted_lt hl a d
  rw [← residue_elem_inj hl (mulWanted_lt hl a _) (inRange_xor hab had),
    residue_mulWanted hl hv ha (inRange_xor hb hd), BitVec.toNat_xor, BitVec.toNat_xor, residue_xor, residue_xor,
    residue_mulWanted hl hv ha hb, residue_mulWanted hl hv ha hd, mul_add]

/-- R176: a nonzero element has one reciprocal. -/
theorem mulWanted_eq_one_iff (ha0 : a ≠ 0) : mulWanted c a b = 1 ↔ b = divWanted c 1 a := by
  rw [mulWanted_comm]
  exact mulWanted_eq_iff hl hv hb (inRange_one hl) ha ha0

end Valid

/-- Settles O57: the products are `mulWanted`, commutative and associative with the identity 1, and INV answers the one
solution of `mulWanted_eq_one_iff`. -/
theorem multiplicativeGroupLaws : Obligations.MultiplicativeGroupLaws := by
  intro s a b c h hbs ha hb hc
  have hl := h.legal
  have hv := h.valid_if_filling (.inr hbs)
  refine ⟨⟨_, _, _, h.mul_gives hbs ha hb rfl, h.mul_gives hbs hb ha (mulWanted_comm ..), h.mul_gives hbs hb hc rfl,
    h.mul_gives hbs (mulWanted_lt hl a b) hc rfl, h.mul_gives hbs ha (mulWanted_lt hl b c) ?assoc⟩,
    h.mul_gives hbs ha (inRange_one hl) (mulWanted_one hl hv ha), fun ha0 => ?reciprocal⟩
  case assoc => exact (mulWanted_assoc hl hv ha hb hc).symm
  case reciprocal =>
    have reciprocal := divWanted_lt hl 1 a
    exact ⟨_, reciprocal, dzOf_of_ne_zero ha0 ▸ h.inv_gives hbs ha rfl,
      h.mul_gives hbs ha reciprocal (mulWanted_reciprocal hl hv ha ha0),
      fun u hu hmul => (mulWanted_eq_one_iff hl hv ha hu ha0).1 ((h.mul_gives_iff hbs ha hu).1 hmul)⟩

/-- Settles O58: `mulWanted_xor`, with ADD as exclusive or. -/
theorem mulDistributesOverAdd : Obligations.MulDistributesOverAdd := by
  intro s a b c h hbs ha hb hc
  have hl := h.legal
  have hr : Ready s := ⟨hl, by simp [hbs, Phase.busy]⟩
  have product : mulWanted s.cfg a (b ^^^ c) = mulWanted s.cfg a b ^^^ mulWanted s.cfg a c :=
    mulWanted_xor hl (h.valid_if_filling (.inr hbs)) ha hb hc
  exact ⟨_, _, _, _, add_gives hr hb hc, h.mul_gives hbs ha (inRange_xor hb hc) product, h.mul_gives hbs ha hb rfl,
    h.mul_gives hbs ha hc rfl, add_gives hr (mulWanted_lt hl a b) (mulWanted_lt hl a c)⟩

/-! ## The valid polynomials of degree 4 (R182) -/

/-- VALID evaluated on the sixteen polynomials of degree 4. -/
theorem validPoly_four_iff : ∀ k < 16,
    validPoly 4 (BitVec.ofNat 13 (16 + k)) = true ↔ 16 + k = 0x13 ∨ 16 + k = 0x19 := by
  decide

/-- Settles O51: a polynomial of degree 4 is one of sixteen numbers (`validPoly_four_iff`); the powers are computed. -/
theorem twoValidPolynomialsOfDegreeFour : Obligations.TwoValidPolynomialsOfDegreeFour := by
  refine ⟨fun p h32 h16 => ?_, by decide, by decide, by decide⟩
  have hp : BitVec.ofNat 13 (16 + (p.toNat - 16)) = p := by
    rw [Nat.add_sub_cancel' h16, BitVec.ofNat_toNat, BitVec.setWidth_eq]
  have valid := validPoly_four_iff (p.toNat - 16) (by omega)
  rw [hp, Nat.add_sub_cancel' h16] at valid
  rw [valid, BitVec.toNat_eq, BitVec.toNat_eq]
  rfl

end Sys2Proof.Machine
end

section
/-! PROOFS. Exceptions (60_exceptions.md): dz marks exactly the OK answers of DIV by 0 and INV of 0. -/

namespace Sys2Proof.Machine

/-! ## Response words by field (R86, R87) -/

/-- R86, R87: DZ, CODE and RESULT of an OK response. -/
theorem okWord_fields (dz : Bool) (v : Elem) :
    (okWord dz v).getLsbD 12 = dz ∧ (okWord dz v).extractLsb' 13 3 = 0 ∧ (okWord dz v).extractLsb' 0 12 = v := by
  rw [← rspWord_ok]
  refine ⟨?marked, ?code, ?result⟩
  case marked => simp [rspWord]; grind
  case code => ext k hk; simp [rspWord, Code.bits]; grind
  case result => ext k hk; simp [rspWord]; grind

/-- R87: the responses ILLEGAL, RANGE, BADCFG and UNDEF. -/
def errorWords : List RspWord := [0x2000, 0x4000, 0x6000, 0x8000]

theorem errorWords_fields : ∀ r ∈ errorWords, r.getLsbD 12 = false ∧ r.extractLsb' 13 3 ≠ 0 := by
  simp [errorWords]

/-! ## The commands that divide by 0 (R203) -/

/-- R203: the command is DIV with b = 0 or INV with a = 0. -/
def dividesByZero : Instr → Bool
  | .div _ b => dzOf b
  | .inv a => dzOf a
  | _ => false

theorem dividesByZero_iff (i : Instr) : dividesByZero i = true ↔ (∃ a, i = .div a 0) ∨ i = .inv 0 := by
  cases i <;> simp [dividesByZero, dzOf]

/-- A PURE command has no divisor. -/
theorem dividesByZero_of_pure {i : Instr} (hi : i.needsTables = false) : dividesByZero i = false := by
  cases i with
  | add | sub | neg | width | maxval | status => rfl
  | construct | mul | div | inv | exp | log => cases hi

/-- In B_DONE a well-formed TABLE command other than LOG 0 is answered OK, with dz exactly when it divides by 0, and
then with result 0 (R203). -/
theorem Inv.gives_marked {s : State} (h : Inv s) (hbs : s.bs = .done) {i : Instr} (ht : i.needsTables = true)
    (hi : i.wellFormed s.cfg = true) (h0 : i ≠ .log 0) :
    ∃ v, Gives s i (dividesByZero i) v ∧ (dividesByZero i = true → v = 0) := by
  have hl := h.legal
  have quotientByZero {a b : Elem} (hdz : dzOf b = true) : divWanted s.cfg a b = 0 :=
    divWanted_of_zero _ (.inr (beq_iff_eq.1 hdz))
  cases i with
  | construct a => exact ⟨_, construct_gives hl ((wellFormed_unary rfl).1 hi) hbs, nofun⟩
  | mul a b =>
    obtain ⟨ha, hb⟩ := (wellFormed_binary rfl).1 hi
    exact ⟨_, h.mul_gives hbs ha hb rfl, nofun⟩
  | div a b =>
    obtain ⟨ha, hb⟩ := (wellFormed_binary rfl).1 hi
    exact ⟨_, h.div_gives hbs ha hb rfl, quotientByZero⟩
  | inv a => exact ⟨_, h.inv_gives hbs ((wellFormed_unary rfl).1 hi) rfl, quotientByZero⟩
  | exp k =>
    have hk := (wellFormed_unary rfl).1 hi
    exact ⟨_, (exp_by_phase hl hk).2.2 _ hbs (h.expCell_done hbs hk), nofun⟩
  | log e =>
    have he := (wellFormed_unary rfl).1 hi
    have he0 : e ≠ 0 := fun he0 => h0 (congrArg _ he0)
    exact ⟨_, log_gives_cell hl he hbs he0 (h.logCell_done hbs he he0), nofun⟩
  | add | sub | neg | width | maxval | status => cases ht

/-- R88: what answers a command is an error, or OK with dz exactly when the command divides by 0. -/
theorem Inv.response_marked {s : State} (h : Inv s) (hb : s.busy = false) {i : Instr} {r : RspWord}
    (hexec : exec i s = .next (Machine.answered r s)) :
    r ∈ errorWords ∨ ∃ v, r = okWord (dividesByZero i) v ∧ (dividesByZero i = true → v = 0) := by
  have hl := h.legal
  have eq_of {r' : RspWord} (h' : exec i s = .next (Machine.answered r' s)) : r = r' :=
    next_answered_inj.1 (hexec.symm.trans h')
  have error {r' : RspWord} (h' : exec i s = .next (Machine.answered r' s)) (hr' : r' ∈ errorWords) :
      r ∈ errorWords := eq_of h' ▸ hr'
  cases hi : i.wellFormed s.cfg with
  | false => exact .inl (error (exec_range ⟨hl, hb⟩ hi) (by simp [errorWords]))
  | true =>
    cases ht : i.needsTables with
    | false =>
      obtain ⟨v, hv⟩ := exec_pure_gives ⟨hl, hb⟩ hi ht
      rw [dividesByZero_of_pure ht]
      exact .inr ⟨v, eq_of hv, nofun⟩
    | true =>
      obtain hbs | hbs | hbs := (Phase.busy_eq_false_iff s.bs).1 hb
      · have hbs' := congrArg State.bs (Host.Outcome.next.inj (hexec.symm.trans (exec_table_idle hl hi ht hbs)))
        simp [hbs] at hbs'
      · by_cases h0 : i = .log 0
        · exact .inl (error (h0 ▸ exec_log_zero hl hbs) (by simp [errorWords]))
        · obtain ⟨v, hv, hzero⟩ := h.gives_marked hbs ht hi h0
          exact .inr ⟨v, eq_of hv, hzero⟩
      · exact .inl (error (exec_table_failed hl hi ht hbs) (by simp [errorWords]))

/-- Settles O59: a word that does not decode is answered ILLEGAL; a command that emits a response was neither held nor
taken as TRIGGER, and `Inv.response_marked` says what answers it. -/
theorem dzMarksExactlyTheZeroDivisors : Obligations.DzMarksExactlyTheZeroDivisors := by
  intro s t w h hexec hemit
  cases hd : decode w with
  | error e =>
    rw [execWord_error s hd] at hexec
    cases hexec
    simp
  | ok i =>
    rw [execWord_ok s hd] at hexec
    obtain ⟨-, rfl⟩ | ⟨-, -, -, rfl⟩ | ⟨hb, hans⟩ := exec_next hexec
    · simp at hemit
    · simp at hemit
    · obtain ⟨r, rfl⟩ := hans.eq_answered
      simp only [answered_rsp, Except.ok.injEq, ← dividesByZero_iff]
      obtain herr | ⟨v, rfl, hzero⟩ := h.response_marked hb hexec
      · obtain ⟨hdz, hcode⟩ := errorWords_fields r herr
        rw [hdz]
        exact ⟨iff_of_false nofun fun hok => hcode hok.1, nofun⟩
      · obtain ⟨hdz, hcode, hresult⟩ := okWord_fields (dividesByZero i) v
        rw [hdz, hcode, hresult]
        exact ⟨(and_iff_right rfl).symm, hzero⟩

end Sys2Proof.Machine
end

section
/-! PROOFS. Reset (70_reset_and_hazards.md): the step in which reset is due. -/

namespace Sys2Proof.Machine

/-- R10, R230: when reset is due, the step is the reset, in whatever phase the builder is. -/
theorem step_of_reset {s : State} (hl : s.cfg.legal = true) (hr : s.rstNow = true) :
    step s = .next (applyReset s) := by
  rw [step, if_pos hl, if_pos hr]

/-- R40: reset leaves every cell of the four tables NOVALUE. -/
@[simp] theorem applyReset_cell (s : State) (sp : Space) (k : Nat) : (applyReset s).cell sp k = none := by
  cases sp <;> rfl

/-- Settles O10: the step is `applyReset`, and its laws give each piece of state. -/
theorem resetPutsEveryPieceAtItsValue : Obligations.ResetPutsEveryPieceAtItsValue := by
  intro s hl hr
  exact ⟨applyReset s, step_of_reset hl hr, applyReset_cell s, applyReset_initFlag s, applyReset_bs s, applyReset_i s,
    applyReset_a s, applyReset_b s, applyReset_ordOk s, applyReset_rsp s, applyReset_cmds s, applyReset_cfg s,
    applyReset_emitted s, applyReset_rstIn s⟩

end Sys2Proof.Machine
end
